-- ==== Sys2Proof/Word.lean ====
section
/-! DEFINITION. The word types of the machine (spec/00_scope.md R7): every value is unsigned and of a fixed width. -/

namespace Sys2Proof

/-- `u8`: a general register, a memory byte, an 8-bit immediate `NN`. -/
abbrev Byte := BitVec 8

/-- `u16`: `pc`, `I`, a return address, an opcode. -/
abbrev Word := BitVec 16

/-- `u4`: a register index `X` or `Y`, or the sprite height `N` (R8). -/
abbrev Nibble := BitVec 4

/-- `u12`: the address operand `NNN` (R8). -/
abbrev Addr := BitVec 12

end Sys2Proof
end

