-- ==== Sys2Proof/Syntax.lean ====
section
/-! DEFINITION. The 35 instruction kinds of spec/30_encoding.md R74, one constructor per row of the opcode table, in the
table's order, each with the operand fields its format names (R71). A field a row ignores is no operand: the low nibble
of `5XY_` and `9XY_` (R75), the `Y` nibble of the two shifts (R138, R140). -/

namespace Sys2Proof

/-- One decoded instruction. -/
inductive Instr where
  /-- `00E0` ClearScreen (R171). -/
  | clearScreen
  /-- `00EE` Return (R111). -/
  | ret
  /-- `0NNN` CallMachineCode (R112); well-formed only as R76 says. -/
  | callMachineCode (nnn : Addr)
  /-- `1NNN` Jump (R113). -/
  | jump (nnn : Addr)
  /-- `2NNN` CallSubroutine (R114). -/
  | callSubroutine (nnn : Addr)
  /-- `3XNN` SkipIfEqualValue (R115). -/
  | skipIfEqualValue (x : Nibble) (nn : Byte)
  /-- `4XNN` SkipIfNotEqualValue (R116). -/
  | skipIfNotEqualValue (x : Nibble) (nn : Byte)
  /-- `5XY_` SkipIfEqualRegister (R117). -/
  | skipIfEqualRegister (x y : Nibble)
  /-- `6XNN` LoadValue (R132). -/
  | loadValue (x : Nibble) (nn : Byte)
  /-- `7XNN` AddValue (R133). -/
  | addValue (x : Nibble) (nn : Byte)
  /-- `8XY0` LoadRegister (R134). -/
  | loadRegister (x y : Nibble)
  /-- `8XY1` Or (R142). -/
  | or (x y : Nibble)
  /-- `8XY2` And (R143). -/
  | and (x y : Nibble)
  /-- `8XY3` Xor (R144). -/
  | xor (x y : Nibble)
  /-- `8XY4` AddRegisters (R136). -/
  | addRegisters (x y : Nibble)
  /-- `8XY5` SubtractRegisters (R137). -/
  | subtractRegisters (x y : Nibble)
  /-- `8XY6` ShiftRight (R138). -/
  | shiftRight (x : Nibble)
  /-- `8XY7` ReverseSubtract (R139). -/
  | reverseSubtract (x y : Nibble)
  /-- `8XYE` ShiftLeft (R140). -/
  | shiftLeft (x : Nibble)
  /-- `9XY_` SkipIfNotEqualRegister (R118). -/
  | skipIfNotEqualRegister (x y : Nibble)
  /-- `ANNN` LoadIndex (R150). -/
  | loadIndex (nnn : Addr)
  /-- `BNNN` JumpPlusV0 (R119). -/
  | jumpPlusV0 (nnn : Addr)
  /-- `CXNN` RandomAnd (R141). -/
  | randomAnd (x : Nibble) (nn : Byte)
  /-- `DXYN` DrawSprite (R172). -/
  | drawSprite (x y n : Nibble)
  /-- `EX9E` SkipIfKeyPressed (R180). -/
  | skipIfKeyPressed (x : Nibble)
  /-- `EXA1` SkipIfKeyNotPressed (R181). -/
  | skipIfKeyNotPressed (x : Nibble)
  /-- `FX07` LoadDelayTimer (R183). -/
  | loadDelayTimer (x : Nibble)
  /-- `FX0A` WaitForKey (R182). -/
  | waitForKey (x : Nibble)
  /-- `FX15` SetDelayTimer (R184). -/
  | setDelayTimer (x : Nibble)
  /-- `FX18` SetSoundTimer (R185). -/
  | setSoundTimer (x : Nibble)
  /-- `FX1E` AddToIndex (R151). -/
  | addToIndex (x : Nibble)
  /-- `FX29` LoadSpriteLocation (R152). -/
  | loadSpriteLocation (x : Nibble)
  /-- `FX33` StoreBCD (R153). -/
  | storeBCD (x : Nibble)
  /-- `FX55` StoreRegisters (R154). -/
  | storeRegisters (x : Nibble)
  /-- `FX65` LoadRegisters (R155). -/
  | loadRegisters (x : Nibble)
  deriving DecidableEq, Repr

end Sys2Proof
end

