-- ==== Sys2Proof/WellFormed.lean ====
section
/-! DEFINITION. Which terms of `Instr` stand for an instruction. Every operand but one is of the width of its field, so
each of its values is an operand; the exception is the address of CallMachineCode (spec/30_encoding.md R76). -/

namespace Sys2Proof

/-- The addresses CallMachineCode admits (R76): below 0x200, and neither of the words of ClearScreen and Return. -/
def callMcAddrOk (nnn : Addr) : Bool :=
  nnn.toNat < 0x200 && nnn != 0x0E0#12 && nnn != 0x0EE#12

/-- Well-formedness of an instruction. -/
def Instr.wf : Instr → Bool
  | .callMachineCode nnn => callMcAddrOk nnn
  | .clearScreen => true
  | .ret => true
  | .jump _ => true
  | .callSubroutine _ => true
  | .skipIfEqualValue _ _ => true
  | .skipIfNotEqualValue _ _ => true
  | .skipIfEqualRegister _ _ => true
  | .loadValue _ _ => true
  | .addValue _ _ => true
  | .loadRegister _ _ => true
  | .or _ _ => true
  | .and _ _ => true
  | .xor _ _ => true
  | .addRegisters _ _ => true
  | .subtractRegisters _ _ => true
  | .shiftRight _ => true
  | .reverseSubtract _ _ => true
  | .shiftLeft _ => true
  | .skipIfNotEqualRegister _ _ => true
  | .loadIndex _ => true
  | .jumpPlusV0 _ => true
  | .randomAnd _ _ => true
  | .drawSprite _ _ _ => true
  | .skipIfKeyPressed _ => true
  | .skipIfKeyNotPressed _ => true
  | .loadDelayTimer _ => true
  | .waitForKey _ => true
  | .setDelayTimer _ => true
  | .setSoundTimer _ => true
  | .addToIndex _ => true
  | .loadSpriteLocation _ => true
  | .storeBCD _ => true
  | .storeRegisters _ => true
  | .loadRegisters _ => true

end Sys2Proof
end

