-- ==== Sys2Proof/Decode.lean ====
section
/-! DEFINITION. The decoder of spec/30_encoding.md (R70 to R82), total on any bytes, and the encoder written from the
same table (R74, R83). -/

namespace Sys2Proof

/-- Why the decoder refuses. -/
inductive DecodeError where
  /-- R80: the word is in the list of encodings that raise UnknownOpcode. -/
  | unknownOpcode (op : Word)
  /-- Fewer than the two bytes of an instruction were given (R70: every instruction is two bytes). -/
  | truncated
  deriving DecidableEq, Repr

/-! The fields of an opcode (R71). -/

/-- `seg`, bits 15:12. -/
def opSeg (op : Word) : Nibble := op.extractLsb' 12 4
/-- `X`, bits 11:8. -/
def opX (op : Word) : Nibble := op.extractLsb' 8 4
/-- `Y`, bits 7:4. -/
def opY (op : Word) : Nibble := op.extractLsb' 4 4
/-- `N`, bits 3:0. -/
def opN (op : Word) : Nibble := op.extractLsb' 0 4
/-- `NN`, bits 7:0. -/
def opNN (op : Word) : Byte := op.extractLsb' 0 8
/-- `NNN`, bits 11:0. -/
def opNNN (op : Word) : Addr := op.extractLsb' 0 12

/-- Segment 0 (R76): the two whole words first, then CallMachineCode below 0x200. -/
def decodeSeg0 (op : Word) : Except DecodeError Instr :=
  if op = 0x00E0#16 then .ok .clearScreen
  else if op = 0x00EE#16 then .ok .ret
  else if (opNNN op).toNat < 0x200 then .ok (.callMachineCode (opNNN op))
  else .error (.unknownOpcode op)

/-- Segment 8, by the low nibble (R77). -/
def decodeSeg8 (op : Word) : Except DecodeError Instr :=
  match (opN op).toNat with
  | 0x0 => .ok (.loadRegister (opX op) (opY op))
  | 0x1 => .ok (.or (opX op) (opY op))
  | 0x2 => .ok (.and (opX op) (opY op))
  | 0x3 => .ok (.xor (opX op) (opY op))
  | 0x4 => .ok (.addRegisters (opX op) (opY op))
  | 0x5 => .ok (.subtractRegisters (opX op) (opY op))
  | 0x6 => .ok (.shiftRight (opX op))
  | 0x7 => .ok (.reverseSubtract (opX op) (opY op))
  | 0xE => .ok (.shiftLeft (opX op))
  | _ => .error (.unknownOpcode op)

/-- Segment E, by the whole low byte (R78). -/
def decodeSegE (op : Word) : Except DecodeError Instr :=
  if opNN op = 0x9E#8 then .ok (.skipIfKeyPressed (opX op))
  else if opNN op = 0xA1#8 then .ok (.skipIfKeyNotPressed (opX op))
  else .error (.unknownOpcode op)

/-- Segment F, by the whole low byte (R79). -/
def decodeSegF (op : Word) : Except DecodeError Instr :=
  if opNN op = 0x07#8 then .ok (.loadDelayTimer (opX op))
  else if opNN op = 0x0A#8 then .ok (.waitForKey (opX op))
  else if opNN op = 0x15#8 then .ok (.setDelayTimer (opX op))
  else if opNN op = 0x18#8 then .ok (.setSoundTimer (opX op))
  else if opNN op = 0x1E#8 then .ok (.addToIndex (opX op))
  else if opNN op = 0x29#8 then .ok (.loadSpriteLocation (opX op))
  else if opNN op = 0x33#8 then .ok (.storeBCD (opX op))
  else if opNN op = 0x55#8 then .ok (.storeRegisters (opX op))
  else if opNN op = 0x65#8 then .ok (.loadRegisters (opX op))
  else .error (.unknownOpcode op)

/-- The decoder: first-level dispatch on the segment (R75), then segments 0, 8, E, F on more bits. -/
def decode (op : Word) : Except DecodeError Instr :=
  match (opSeg op).toNat with
  | 0x0 => decodeSeg0 op
  | 0x1 => .ok (.jump (opNNN op))
  | 0x2 => .ok (.callSubroutine (opNNN op))
  | 0x3 => .ok (.skipIfEqualValue (opX op) (opNN op))
  | 0x4 => .ok (.skipIfNotEqualValue (opX op) (opNN op))
  | 0x5 => .ok (.skipIfEqualRegister (opX op) (opY op))
  | 0x6 => .ok (.loadValue (opX op) (opNN op))
  | 0x7 => .ok (.addValue (opX op) (opNN op))
  | 0x8 => decodeSeg8 op
  | 0x9 => .ok (.skipIfNotEqualRegister (opX op) (opY op))
  | 0xA => .ok (.loadIndex (opNNN op))
  | 0xB => .ok (.jumpPlusV0 (opNNN op))
  | 0xC => .ok (.randomAnd (opX op) (opNN op))
  | 0xD => .ok (.drawSprite (opX op) (opY op) (opN op))
  | 0xE => decodeSegE op
  | _ => decodeSegF op

/-- The opcode of two consecutive bytes, big-endian: the byte at the lower address is the high byte (R50). -/
def wordOfBytes (hi lo : Byte) : Word := hi ++ lo

/-- The decoder on any bytes: one instruction and the bytes after it. -/
def decodeBytes : List Byte → Except DecodeError (Instr × List Byte)
  | hi :: lo :: rest =>
    match decode (wordOfBytes hi lo) with
    | .ok i => .ok (i, rest)
    | .error e => .error e
  | _ => .error .truncated

/-- The high byte of an opcode, which lies at the lower address (R50). -/
def highByte (op : Word) : Byte := op.extractLsb' 8 8
/-- The low byte of an opcode, which lies at the higher address (R50). -/
def lowByte (op : Word) : Byte := op.extractLsb' 0 8

/-- The opcode whose bits the host numbers as the opcode table does: one 16-bit word, bit 0 its least significant; the
bits from `nbits` up are 0. -/
def tableWord (nbits w : Nat) : Word := BitVec.ofNat 16 (w % 2 ^ nbits)

/-- What the decoder reads from the instruction whose table bits are `w`, laid out big-endian in memory. -/
def decodeTableWord (nbits w : Nat) : Option Instr :=
  match decodeBytes [highByte (tableWord nbits w), lowByte (tableWord nbits w)] with
  | .ok (i, _) => some i
  | .error _ => none

/-! The encoder, from the formats of R71 and the patterns of R74; ignored nibbles are written as 0 (R83). -/

/-- Format `ADDR`. -/
def encAddr (seg : Nibble) (nnn : Addr) : Word := seg ++ nnn
/-- Format `XNN`, and `XF` with the function byte in `NN`'s place. -/
def encXNN (seg x : Nibble) (nn : Byte) : Word := seg ++ x ++ nn
/-- Formats `XYN`, `XYF` and `XY`. -/
def encXYN (seg x y n : Nibble) : Word := seg ++ x ++ y ++ n

/-- The word of an instruction. -/
def encode : Instr → Word
  | .clearScreen => 0x00E0#16
  | .ret => 0x00EE#16
  | .callMachineCode nnn => encAddr 0x0#4 nnn
  | .jump nnn => encAddr 0x1#4 nnn
  | .callSubroutine nnn => encAddr 0x2#4 nnn
  | .skipIfEqualValue x nn => encXNN 0x3#4 x nn
  | .skipIfNotEqualValue x nn => encXNN 0x4#4 x nn
  | .skipIfEqualRegister x y => encXYN 0x5#4 x y 0x0#4
  | .loadValue x nn => encXNN 0x6#4 x nn
  | .addValue x nn => encXNN 0x7#4 x nn
  | .loadRegister x y => encXYN 0x8#4 x y 0x0#4
  | .or x y => encXYN 0x8#4 x y 0x1#4
  | .and x y => encXYN 0x8#4 x y 0x2#4
  | .xor x y => encXYN 0x8#4 x y 0x3#4
  | .addRegisters x y => encXYN 0x8#4 x y 0x4#4
  | .subtractRegisters x y => encXYN 0x8#4 x y 0x5#4
  | .shiftRight x => encXYN 0x8#4 x 0x0#4 0x6#4
  | .reverseSubtract x y => encXYN 0x8#4 x y 0x7#4
  | .shiftLeft x => encXYN 0x8#4 x 0x0#4 0xE#4
  | .skipIfNotEqualRegister x y => encXYN 0x9#4 x y 0x0#4
  | .loadIndex nnn => encAddr 0xA#4 nnn
  | .jumpPlusV0 nnn => encAddr 0xB#4 nnn
  | .randomAnd x nn => encXNN 0xC#4 x nn
  | .drawSprite x y n => encXYN 0xD#4 x y n
  | .skipIfKeyPressed x => encXNN 0xE#4 x 0x9E#8
  | .skipIfKeyNotPressed x => encXNN 0xE#4 x 0xA1#8
  | .loadDelayTimer x => encXNN 0xF#4 x 0x07#8
  | .waitForKey x => encXNN 0xF#4 x 0x0A#8
  | .setDelayTimer x => encXNN 0xF#4 x 0x15#8
  | .setSoundTimer x => encXNN 0xF#4 x 0x18#8
  | .addToIndex x => encXNN 0xF#4 x 0x1E#8
  | .loadSpriteLocation x => encXNN 0xF#4 x 0x29#8
  | .storeBCD x => encXNN 0xF#4 x 0x33#8
  | .storeRegisters x => encXNN 0xF#4 x 0x55#8
  | .loadRegisters x => encXNN 0xF#4 x 0x65#8

/-- The two bytes of an instruction as they lie in memory. -/
def encodeBytes (i : Instr) : List Byte := [highByte (encode i), lowByte (encode i)]

/-- The bits of its word that an instruction uses: all but the ignored nibble of the two register skips (R75) and of the
two shifts (R138, R140). -/
def Instr.usedBits : Instr → Word
  | .skipIfEqualRegister _ _ | .skipIfNotEqualRegister _ _ => 0xFFF0#16
  | .shiftRight _ | .shiftLeft _ => 0xFF0F#16
  | .clearScreen | .ret | .callMachineCode _ | .jump _ | .callSubroutine _ | .skipIfEqualValue _ _
  | .skipIfNotEqualValue _ _ | .loadValue _ _ | .addValue _ _ | .loadRegister _ _ | .or _ _ | .and _ _ | .xor _ _
  | .addRegisters _ _ | .subtractRegisters _ _ | .reverseSubtract _ _ | .loadIndex _ | .jumpPlusV0 _ | .randomAnd _ _
  | .drawSprite _ _ _ | .skipIfKeyPressed _ | .skipIfKeyNotPressed _ | .loadDelayTimer _ | .waitForKey _
  | .setDelayTimer _ | .setSoundTimer _ | .addToIndex _ | .loadSpriteLocation _ | .storeBCD _ | .storeRegisters _
  | .loadRegisters _ => 0xFFFF#16

/-- The `mask` column of R74. -/
def Instr.mask : Instr → Word
  | .clearScreen | .ret => 0xFFFF#16
  | .loadRegister _ _ | .or _ _ | .and _ _ | .xor _ _ | .addRegisters _ _ | .subtractRegisters _ _ | .shiftRight _
  | .reverseSubtract _ _ | .shiftLeft _ => 0xF00F#16
  | .skipIfKeyPressed _ | .skipIfKeyNotPressed _ | .loadDelayTimer _ | .waitForKey _ | .setDelayTimer _
  | .setSoundTimer _ | .addToIndex _ | .loadSpriteLocation _ | .storeBCD _ | .storeRegisters _ | .loadRegisters _ =>
    0xF0FF#16
  | .callMachineCode _ | .jump _ | .callSubroutine _ | .skipIfEqualValue _ _ | .skipIfNotEqualValue _ _
  | .skipIfEqualRegister _ _ | .loadValue _ _ | .addValue _ _ | .skipIfNotEqualRegister _ _ | .loadIndex _
  | .jumpPlusV0 _ | .randomAnd _ _ | .drawSprite _ _ _ => 0xF000#16

/-- The `match` column of R74. -/
def Instr.matchBits : Instr → Word
  | .clearScreen => 0x00E0#16
  | .ret => 0x00EE#16
  | .callMachineCode _ => 0x0000#16
  | .jump _ => 0x1000#16
  | .callSubroutine _ => 0x2000#16
  | .skipIfEqualValue _ _ => 0x3000#16
  | .skipIfNotEqualValue _ _ => 0x4000#16
  | .skipIfEqualRegister _ _ => 0x5000#16
  | .loadValue _ _ => 0x6000#16
  | .addValue _ _ => 0x7000#16
  | .loadRegister _ _ => 0x8000#16
  | .or _ _ => 0x8001#16
  | .and _ _ => 0x8002#16
  | .xor _ _ => 0x8003#16
  | .addRegisters _ _ => 0x8004#16
  | .subtractRegisters _ _ => 0x8005#16
  | .shiftRight _ => 0x8006#16
  | .reverseSubtract _ _ => 0x8007#16
  | .shiftLeft _ => 0x800E#16
  | .skipIfNotEqualRegister _ _ => 0x9000#16
  | .loadIndex _ => 0xA000#16
  | .jumpPlusV0 _ => 0xB000#16
  | .randomAnd _ _ => 0xC000#16
  | .drawSprite _ _ _ => 0xD000#16
  | .skipIfKeyPressed _ => 0xE09E#16
  | .skipIfKeyNotPressed _ => 0xE0A1#16
  | .loadDelayTimer _ => 0xF007#16
  | .waitForKey _ => 0xF00A#16
  | .setDelayTimer _ => 0xF015#16
  | .setSoundTimer _ => 0xF018#16
  | .addToIndex _ => 0xF01E#16
  | .loadSpriteLocation _ => 0xF029#16
  | .storeBCD _ => 0xF033#16
  | .storeRegisters _ => 0xF055#16
  | .loadRegisters _ => 0xF065#16

end Sys2Proof
end

