-- ==== Sys2Proof/Config.lean ====
section
/-! DEFINITION. What an implementation fixes (spec/00_scope.md R5) and the free values of the outside world. The open
parameters' defaults, which a test could show wrong, stand in Machine/Params.lean. -/

namespace Sys2Proof

/-- The two settings of the open parameter `CALLMC_POLICY` (R5, R112): what CallMachineCode does. -/
inductive CallMcPolicy where
  /-- CallMachineCode does nothing: `pc` was already advanced by the fetch. -/
  | nop
  /-- CallMachineCode raises the fault `Unsupported`. -/
  | unsupported
  deriving DecidableEq, Repr

/-- `MEM_SIZE`: 4096 bytes. -/
@[simp] abbrev Config.memSize : Nat := 4096

/-- `ENTRY`: where the first `Start` after an `Initialize` puts `pc` (R244). -/
@[simp] abbrev Config.entry : Word := 0x0200#16

/-- `ROM_MAX`: the longest ROM `Initialize` accepts (R241). -/
@[simp] abbrev Config.romMax : Nat := 3584

/-- `FONT_BASE`: where the font table stands (R152). -/
@[simp] abbrev Config.fontBase : Nat := 0

/-- `GLYPH_BYTES`: the size of one font glyph (R152). -/
@[simp] abbrev Config.glyphBytes : Nat := 5

/-- `SP_MAX`: the highest stack pointer, so the usable depth (R27, R28). -/
@[simp] abbrev Config.spMax : Nat := 15

/-- `FRAME_RATE`: cycles per second, an open parameter with default 60, timing only; it has no value in the model, and no
definition reads it (R5, R257, log 12). -/
opaque Config.frameRate : Nat

/-- FREE VALUE (log 1): what the host drives on the port `key_in` at step `n`, where the state's script says nothing.
R91: "an unconstrained input: the model must hold for every sequence of values". -/
opaque Config.keyIn : Nat → BitVec 16

/-- FREE VALUE (log 1): the byte on the port `rnd` at step `n`, where the state's script says nothing. R141: a fresh
value for each execution, "a draw under no law". -/
opaque Config.rnd : Nat → Byte

end Sys2Proof
end

