-- ==== Sys2Proof/Machine/Params.lean ====
section
/-! DEFINITION. The values that the reset state gives the open parameters of spec/00_scope.md R5: the default font (R243, log 3)
and the setting of `CALLMC_POLICY` (R112, log 6). Both parameters are fields of State, so every other value is a state's too. -/

namespace Sys2Proof.Machine

/-- The bytes of the default `FONT` of R243: glyph `d` is bytes `5d` to `5d + 4`. -/
def defaultFont : List Byte :=
  [ 0xF0#8, 0x90#8, 0x90#8, 0x90#8, 0xF0#8,   -- 0
    0x20#8, 0x60#8, 0x20#8, 0x20#8, 0x70#8,   -- 1
    0xF0#8, 0x10#8, 0xF0#8, 0x80#8, 0xF0#8,   -- 2
    0xF0#8, 0x10#8, 0xF0#8, 0x10#8, 0xF0#8 ]  -- 3
  ++
  [ 0x90#8, 0x90#8, 0xF0#8, 0x10#8, 0x10#8,   -- 4
    0xF0#8, 0x80#8, 0xF0#8, 0x10#8, 0xF0#8,   -- 5
    0xF0#8, 0x80#8, 0xF0#8, 0x90#8, 0xF0#8,   -- 6
    0xF0#8, 0x10#8, 0x20#8, 0x40#8, 0x40#8 ]  -- 7
  ++
  [ 0xF0#8, 0x90#8, 0xF0#8, 0x90#8, 0xF0#8,   -- 8
    0xF0#8, 0x90#8, 0xF0#8, 0x10#8, 0xF0#8,   -- 9
    0xF0#8, 0x90#8, 0xF0#8, 0x90#8, 0x90#8,   -- A
    0xE0#8, 0x90#8, 0xE0#8, 0x90#8, 0xE0#8 ]  -- B
  ++
  [ 0xF0#8, 0x80#8, 0x80#8, 0x80#8, 0xF0#8,   -- C
    0xE0#8, 0x90#8, 0x90#8, 0x90#8, 0xE0#8,   -- D
    0xF0#8, 0x80#8, 0xF0#8, 0x80#8, 0xF0#8,   -- E
    0xF0#8, 0x80#8, 0xF0#8, 0x80#8, 0x80#8 ]  -- F

/-- What a byte nothing has written reads as: the contents of memory at reset, the default font from `FONT_BASE` on and 0x00
elsewhere (R55, log 4). `Initialize` writes the machine's own `FONT` over it. -/
def initialByte (a : Nat) : Byte :=
  if Config.fontBase ≤ a then defaultFont.getD (a - Config.fontBase) 0x00#8 else 0x00#8

/-- `FONT` at reset, the default of R243 (log 3). -/
def resetFont : Vector Byte 80 := ⟨defaultFont.toArray, rfl⟩

/-- The setting of `CALLMC_POLICY` at reset, what the repository does (R112: "What the repository does is `NOP`"). -/
def resetCallMc : CallMcPolicy := .nop

end Sys2Proof.Machine
end

