-- ==== Sys2Proof/Machine/Memory.lean ====
section
/-! DEFINITION. The memory array `Mem` (spec/10_state.md R38) as plain data: the bytes that differ from the reset
contents, addresses strictly rising. The bound of spec/20_memory.md R51 is checked by the operations of Machine/Ops.lean. -/

namespace Sys2Proof.Machine

/-- Memory: the (address, byte) pairs that differ from `initialByte`, in rising order of address. -/
abbrev Memory := List Host.Cell

/-- `Mem[a]`. -/
def Memory.read : Memory → Nat → Byte
  | [], a => initialByte a
  | c :: m, a => if c.1 = a then c.2 else Memory.read m a

/-- `m` with no pair for `a`: there `a` reads as at reset. -/
def Memory.erase (m : Memory) (a : Nat) : Memory := m.filter (fun c => c.1 != a)

/-- `m` with a pair for `a` put in its place in the order. -/
def Memory.insert : Memory → Nat → Byte → Memory
  | [], a, b => [(a, b)]
  | c :: m, a, b => if a < c.1 then (a, b) :: c :: m else c :: Memory.insert m a b

/-- `Mem[a] <- b`, keeping the canonical form. -/
def Memory.write (m : Memory) (a : Nat) (b : Byte) : Memory :=
  if b = initialByte a then m.erase a else (m.erase a).insert a b

/-- `Mem[a + j] <- bs[j]` for every `j`, in ascending order. -/
def Memory.writeBytes (m : Memory) (a : Nat) : List Byte → Memory
  | [] => m
  | b :: bs => Memory.writeBytes (m.write a b) (a + 1) bs

/-- Every pair of `m` has an address above `lo`, addresses rise strictly, lie in 0 to 4095, and no pair repeats the reset
contents; the first argument is a strict lower bound plus one. -/
def Memory.wfFrom : Nat → Memory → Bool
  | _, [] => true
  | lo, c :: m => lo ≤ c.1 && c.1 < Config.memSize && c.2 != initialByte c.1 && Memory.wfFrom (c.1 + 1) m

/-- The canonical form of memory. -/
def Memory.wf (m : Memory) : Bool := Memory.wfFrom 0 m

end Sys2Proof.Machine
end

