-- ==== Sys2Proof/Machine/State.lean ====
section
/-! DEFINITION. The state of the machine as plain data (spec/10_state.md R20 to R41), the reasons a step can stop, and the
state after reset (R41, spec/70_reset_and_hazards.md R241). -/

namespace Sys2Proof.Machine

/-- The closed list of the spec's faults with the information each records (spec/60_exceptions.md R200). Taking one inside
a cycle is a NEXT state with the latch set (R214); a host command that fails answers one (D32). -/
inductive CoreFault where
  /-- Code 1, answered to `Initialize`: the length of the ROM (R201). -/
  | invalidRom (length : Nat)
  /-- Code 2: the failing address, an unbounded natural (R202). -/
  | outOfBounds (address : Nat)
  /-- Code 3, CallSubroutine: `SP` (R203). -/
  | stackOverflow (sp : Fin 16)
  /-- Code 4, Return (R204). -/
  | stackUnderflow
  /-- Code 5, decode: the opcode and the advanced `pc` (R205). -/
  | unknownOpcode (op : Word) (pc : Word)
  /-- Code 6, answered to `Start` (R210). -/
  | alreadyRunning
  /-- Code 7, answered to `Stop` (R211). -/
  | alreadyStopped
  /-- Code 8, `Next()`: `pc` before the step (R207). -/
  | programCounterOverflow (pc : Word)
  /-- Code 9, `Restore()`: `pc` before the step (R208). -/
  | programCounterUnderflow (pc : Word)
  /-- Code 10, CallMachineCode: the opcode and the advanced `pc` (R206). -/
  | unsupported (op : Word) (pc : Word)
  /-- Code 11, the key skips: `V[X]` (R209). -/
  | keyIndexOutOfRange (index : Byte)
  deriving DecidableEq, Repr

/-- One output event of a step (D1): the strobes of R97 to R101 and R244 to R246, and the fault port of R214. -/
inductive Output where
  /-- `Start` began a run (R244). -/
  | started
  /-- A cycle completed (R97). -/
  | updated
  /-- The framebuffer may be read (R98). -/
  | frameReady
  /-- The sound timer is above 0 after its tick (R101). -/
  | beep
  /-- A run ended, by `Stop` (R246) or by a fault (R214). -/
  | stopped
  /-- `fault_out`, which carries the fault's code and information (R214). -/
  | faultOut (f : CoreFault)
  deriving DecidableEq, Repr

/-- The commands of the host (spec/70_reset_and_hazards.md). -/
inductive HostCommand where
  /-- `Initialize(rom)` (R241). -/
  | initRom (rom : List Byte)
  /-- `Start` (R244). -/
  | start
  /-- `Stop` (R246). -/
  | stop
  /-- `load(bytes, offset)` (R248). -/
  | load (bytes : List Byte) (offset : Nat)
  /-- `setKeyState(index, pressed)` (R249). -/
  | setKeyState (index : Nat) (pressed : Bool)
  deriving DecidableEq, Repr

/-- What a host command is answered. -/
inductive HostReply where
  /-- The command took effect. -/
  | done
  /-- The command failed with a named fault; nothing changed and no fault is latched (R200, D32). -/
  | failed (f : CoreFault)
  /-- The command was refused, for which the spec gives no name (R240, R247, R215, D34; log 10); nothing changed. -/
  | refused
  deriving DecidableEq, Repr

/-- What the outside world presents to one step (R90, D1). -/
structure PortInput where
  /-- The host command issued at this cycle boundary, if any. -/
  command : Option HostCommand
  /-- The port `key_in`: bit `k` is logical key `k` (R91). -/
  keyIn : BitVec 16
  /-- The port `rnd` (R141). -/
  rnd : Byte
  deriving DecidableEq, Repr

/-- The framebuffer: `fb[y][x]` is the pixel of row `y`, column `x` (R31). -/
abbrev FrameBuffer := Vector (Vector Bool 64) 32

/-- The whole state: the spec's own, then the model's own fields. -/
structure State where
  /-- The general registers `V0` to `VF` (R20). -/
  v : Vector Byte 16
  /-- The program counter (R23). -/
  pc : Word
  /-- The index register `I` (R25). -/
  i : Word
  /-- The return stack; entry 0 is dead state (R26, R27). -/
  stack : Vector Word 16
  /-- The stack pointer `SP`, 0 to 15 (R27). -/
  sp : Fin 16
  /-- The delay timer `DT` (R29). -/
  dt : Byte
  /-- The sound timer `ST` (R30). -/
  st : Byte
  /-- The framebuffer `FB` (R31). -/
  fb : FrameBuffer
  /-- The key flags `K` (R32). -/
  k : Vector Bool 16
  /-- The draw flag (R33). -/
  draw : Bool
  /-- Whether the core performs cycles (R34). -/
  running : Bool
  /-- Whether `pc` was seeded for this load (R35). -/
  started : Bool
  /-- The fault latch (R36). -/
  fault : Option CoreFault
  /-- The memory array `Mem` (R38). -/
  mem : Memory
  /-- MODEL'S OWN (log 5): whether an `Initialize` has succeeded (R244). -/
  initialized : Bool
  /-- MODEL'S OWN (log 6): the open parameter `CALLMC_POLICY` (R5, R112); no step writes it. -/
  callmc : CallMcPolicy
  /-- MODEL'S OWN (log 3): the open parameter `FONT`, the 80 bytes `Initialize` loads (R5, R57, R243); no step writes it. -/
  font : Vector Byte 80
  /-- MODEL'S OWN (log 1): what the outside world presents at the coming steps, one entry a step. -/
  script : List PortInput
  /-- MODEL'S OWN (log 1): how many steps were taken; where the free values are read. -/
  ticks : Nat
  /-- MODEL'S OWN (log 2): the output events of the last step, in the order they were raised. -/
  out : List Output
  /-- MODEL'S OWN (log 2): the answer to the host command of the last step, if it served one. -/
  reply : Option HostReply
  deriving DecidableEq, Repr

/-- Why `step` has no next state. No instruction ends in one of these: an instruction's fault is taken (R214). -/
inductive Fault where
  /-- Raised by `step` where `running = 0`, no fault is latched and no host command stands: R90, "It takes a step only
  when `running = 1`". Safe: nothing is claimed of a step that the core does not take. -/
  | coreStopped
  /-- Raised by `step` where a fault is latched and no host command stands: R214, such a state has "no further step".
  Safe, for the same reason. -/
  | coreFaulted (f : CoreFault)
  deriving DecidableEq, Repr

/-- The refusals of the model. -/
inductive Refusal where
  /-- An instruction whose arm of `exec` has no meaning yet. Raised by no arm of this model. Safe. -/
  | notModelled (mnemonic : String)
  deriving DecidableEq, Repr

/-- The state right after reset, that is after a successful `Initialize` (R41), of the empty ROM (log 4). -/
def State.reset : State where
  v := Vector.replicate 16 0x00#8
  pc := 0x0000#16
  i := 0x0000#16
  stack := Vector.replicate 16 0x0000#16
  sp := 0
  dt := 0x00#8
  st := 0x00#8
  fb := Vector.replicate 32 (Vector.replicate 64 false)
  k := Vector.replicate 16 false
  draw := false
  running := false
  started := false
  fault := none
  mem := []
  initialized := true
  callmc := resetCallMc
  font := resetFont
  script := []
  ticks := 0
  out := []
  reply := none

end Sys2Proof.Machine
end

