-- ==== Sys2Proof/Machine/Ops.lean ====
section
/-! DEFINITION. The named operations of spec/00_scope.md R9 to R11 over registers, `pc`, stack, memory, framebuffer and
keys, and the taking of a fault (spec/60_exceptions.md R214), shared by every instruction. There is no return from a fault
beside it: R215, only `Initialize` clears the latch (Machine/HostCommands.lean). -/

namespace Sys2Proof.Machine

/-! ## Registers -/

/-- `V[x]` (R20). -/
def State.reg (s : State) (x : Nibble) : Byte := s.v[x.toNat]

/-- `V[x] <- b` (R20). -/
def State.setReg (s : State) (x : Nibble) (b : Byte) : State := { s with v := s.v.set x.toNat b }

/-- `pc <- w` (R23). -/
def State.setPc (s : State) (w : Word) : State := { s with pc := w }

/-- `I <- w` (R25). -/
def State.setIndex (s : State) (w : Word) : State := { s with i := w }

/-- `DT <- b` (R29). -/
def State.setDelay (s : State) (b : Byte) : State := { s with dt := b }

/-- `ST <- b` (R30). -/
def State.setSound (s : State) (b : Byte) : State := { s with st := b }

/-- The framebuffer replaced (R31). -/
def State.setFb (s : State) (fb : FrameBuffer) : State := { s with fb := fb }

/-- `draw <- 1` (R33). -/
def State.setDraw (s : State) : State := { s with draw := true }

/-- The memory array replaced (R38). -/
def State.setMem (s : State) (m : Memory) : State := { s with mem := m }

/-- The stack pointer replaced (R27). -/
def State.setSp (s : State) (sp : Fin 16) : State := { s with sp := sp }

/-- `stack[sp] <- w` at the current stack pointer (R26, R28). -/
def State.setTop (s : State) (w : Word) : State := { s with stack := s.stack.set s.sp.val w }

/-- The index of `VF` (R22). -/
abbrev vfIdx : Nibble := 0xF#4

/-! ## Faults -/

/-- How a piece of an instruction ends: it goes on with a state, or it raises a fault in a state that keeps what was
written before (R11, R96). -/
inductive Result where
  /-- The instruction goes on. -/
  | done (s : State)
  /-- `raise f`: the instruction and the cycle end. -/
  | raised (f : CoreFault) (s : State)
  deriving DecidableEq, Repr

/-- Taking a fault (R214): the latch is set, the run ends, `fault_out` and then `stopped` are raised; nothing else
changes, `pc` and all partial effects stay. -/
def takeFault (f : CoreFault) (s : State) : State :=
  { s with fault := some f, running := false, out := s.out ++ [.faultOut f, .stopped] }

/-- The state an instruction leaves: a raised fault is taken. -/
def Result.commit : Result → State
  | .done s => s
  | .raised f s => takeFault f s

/-- The outcome of an instruction: always a next state, since every fault is taken. -/
def Result.outcome (r : Result) : Host.Outcome State Fault Refusal := .next r.commit

/-- The code of a fault on `fault_out` (R200; code 0 is `None`). -/
def CoreFault.code : CoreFault → Nat
  | .invalidRom _ => 1
  | .outOfBounds _ => 2
  | .stackOverflow _ => 3
  | .stackUnderflow => 4
  | .unknownOpcode _ _ => 5
  | .alreadyRunning => 6
  | .alreadyStopped => 7
  | .programCounterOverflow _ => 8
  | .programCounterUnderflow _ => 9
  | .unsupported _ _ => 10
  | .keyIndexOutOfRange _ => 11

/-- The recorded information of a fault as numbers, in the order of R200's table: for UnknownOpcode the opcode, its
segment, its low byte and the current `pc`. -/
def CoreFault.info : CoreFault → List Nat
  | .invalidRom n => [n]
  | .outOfBounds a => [a]
  | .stackOverflow sp => [sp.val]
  | .stackUnderflow => []
  | .unknownOpcode op pc => [op.toNat, op.toNat / 4096, op.toNat % 256, pc.toNat]
  | .alreadyRunning => []
  | .alreadyStopped => []
  | .programCounterOverflow pc => [pc.toNat]
  | .programCounterUnderflow pc => [pc.toNat]
  | .unsupported op pc => [op.toNat, pc.toNat]
  | .keyIndexOutOfRange x => [x.toNat]

/-! ## Program counter -/

/-- `Next()` (R24). -/
def State.pcNext (s : State) : Result :=
  if Config.memSize ≤ s.pc.toNat + 2 then .raised (.programCounterOverflow s.pc) s
  else .done (s.setPc (s.pc + 2#16))

/-- `Restore()` (R24). -/
def State.pcRestore (s : State) : Result :=
  if s.pc.toNat < 2 then .raised (.programCounterUnderflow s.pc) s
  else .done (s.setPc (s.pc - 2#16))

/-- A skip: one more `Next()` where the condition holds (R115). -/
def State.skipIf (s : State) (c : Bool) : Result :=
  if c then s.pcNext else .done s

/-! ## Return stack -/

/-- `Push(w)` (R28). -/
def State.push (s : State) (w : Word) : Result :=
  if h : s.sp.val < Config.spMax then
    .done ((s.setSp ⟨s.sp.val + 1, Nat.succ_lt_succ h⟩).setTop w)
  else .raised (.stackOverflow s.sp) s

/-- `Pop()` (R28): the popped address and the state after it; a popped slot keeps its value. -/
def State.pop (s : State) : Except CoreFault (Word × State) :=
  if s.sp.val = 0 then .error .stackUnderflow
  else .ok (s.stack[s.sp.val], s.setSp ⟨s.sp.val - 1, Nat.lt_of_le_of_lt (Nat.sub_le _ _) s.sp.isLt⟩)

/-! ## Memory: one byte at a time, each address checked (R10, R51) -/

/-- `MemRead(a, 1)`. -/
def State.readByte (s : State) (a : Nat) : Except CoreFault Byte :=
  if a < Config.memSize then .ok (s.mem.read a) else .error (.outOfBounds a)

/-- `MemWrite(a, 1, b)`. -/
def State.writeByte (s : State) (a : Nat) (b : Byte) : Result :=
  if a < Config.memSize then .done (s.setMem (s.mem.write a b)) else .raised (.outOfBounds a) s

/-- The fetch's `MemRead(pc, 2)` (R92): the byte at `pc` first, big-endian. -/
def State.fetchWord (s : State) : Except CoreFault Word :=
  match s.readByte s.pc.toNat with
  | .error f => .error f
  | .ok hi =>
    match s.readByte (s.pc.toNat + 1) with
    | .error f => .error f
    | .ok lo => .ok (hi ++ lo)

/-- One-byte writes at `a`, `a + 1`, ... in ascending order; bytes below a failing address were written (R54). -/
def State.storeBytes (s : State) (a : Nat) : List Byte → Result
  | [] => .done s
  | b :: bs =>
    match s.writeByte a b with
    | .raised f t => .raised f t
    | .done t => t.storeBytes (a + 1) bs

/-- `n` one-byte reads at `a`, `a + 1`, ... into `V[j]`, `V[j + 1]`, ... in ascending order; registers below the failing
one were loaded (R54). -/
def State.loadRegsFrom (s : State) (a j : Nat) : Nat → Result
  | 0 => .done s
  | n + 1 =>
    match s.readByte a with
    | .error f => .raised f s
    | .ok b => (s.setReg (BitVec.ofNat 4 j) b).loadRegsFrom (a + 1) (j + 1) n

/-! ## Framebuffer (R31, R172) -/

/-- `FB[y mod 32][x mod 64]`. -/
def FrameBuffer.pixel (fb : FrameBuffer) (y x : Nat) : Bool :=
  (fb[y % 32]'(Nat.mod_lt _ (by decide)))[x % 64]'(Nat.mod_lt _ (by decide))

/-- `FB[y mod 32][x mod 64] <- FB[y mod 32][x mod 64] ^ 1`. -/
def FrameBuffer.toggle (fb : FrameBuffer) (y x : Nat) : FrameBuffer :=
  fb.set (y % 32)
    ((fb[y % 32]'(Nat.mod_lt _ (by decide))).set (x % 64) (!fb.pixel y x) (Nat.mod_lt _ (by decide)))
    (Nat.mod_lt _ (by decide))

/-- The all-zero framebuffer. -/
def FrameBuffer.clear : FrameBuffer := Vector.replicate 32 (Vector.replicate 64 false)

/-- The sprite pixel of column offset `c` in a row byte: bit `7 - c`, so bit 7 is the leftmost (R170). -/
def spriteBit (row : Byte) (c : Nat) : Bool := row.getLsbD (7 - c)

/-- One column of a row's blit: where the sprite bit is 1 the pixel is toggled, and a pixel that was 1 is a collision. -/
def blitColumn (vx y : Nat) (row : Byte) (p : FrameBuffer × Bool) (c : Nat) : FrameBuffer × Bool :=
  if spriteBit row c then (p.1.toggle y (vx + c), p.2 || p.1.pixel y (vx + c)) else p

/-- One row's blit, columns 0 to 7 in ascending order (R172). -/
def blitRow (vx y : Nat) (row : Byte) (p : FrameBuffer × Bool) : FrameBuffer × Bool :=
  [0, 1, 2, 3, 4, 5, 6, 7].foldl (blitColumn vx y row) p

/-- The linear sequence of the render port, row-major: index `64*y + x` (R98). -/
def FrameBuffer.render (fb : FrameBuffer) : List Bool := fb.toList.flatMap Vector.toList

/-! ## Keys (R32) -/

/-- `K[j]`; there is no flag above 15. -/
def State.key (s : State) (j : Nat) : Bool := s.k.toList.getD j false

/-- The least held key, if one is held (R182). -/
def State.lowestKey (s : State) : Option Nat := s.k.toList.findIdx? (fun b => b)

/-! ## The ports (D1) -/

/-- What the outside world presents to this step: the head of the script, or, where the script is at its end, no command
and the free values of the ports (R90, R91, R141; log 1). -/
def State.inputs (s : State) : PortInput :=
  match s.script with
  | p :: _ => p
  | [] => { command := none, keyIn := Config.keyIn s.ticks, rnd := Config.rnd s.ticks }

end Sys2Proof.Machine
end

