-- ==== Sys2Proof/Machine/Operands.lean ====
section
/-! DEFINITION. How each operand is formed (spec/30_encoding.md R73, the addressing mode of spec/43_index_memory.md).
Register operands are read with `State.reg`; `NN` is used as it is. -/

namespace Sys2Proof.Machine

/-- `zext_16(NNN)`: an address operand, never scaled (R73). -/
def zextAddr (nnn : Addr) : Word := nnn.setWidth 16

/-- `zext_16(b)`: a register widened to 16 bits (R119, R151). -/
def zextByte (b : Byte) : Word := b.setWidth 16

/-- The one addressing mode: the effective address `I + j`, an unbounded natural that is never wrapped (R51). -/
def State.effAddr (s : State) (j : Nat) : Nat := s.i.toNat + j

/-- `N` as a count of rows, 0 to 15 (R73). -/
def rowCount (n : Nibble) : Nat := n.toNat

/-- The registers `V[0]` to `V[X]`, `X` included (R154). -/
def State.regsUpTo (s : State) (x : Nibble) : List Byte := s.v.toList.take (x.toNat + 1)

/-- The three digits of StoreBCD, hundreds first (R153). -/
def bcdDigits (a : Byte) : List Byte :=
  [BitVec.ofNat 8 (a.toNat / 100), BitVec.ofNat 8 (a.toNat / 10 % 10), BitVec.ofNat 8 (a.toNat % 10)]

/-- The address of the font glyph of the low nibble of `b` (R152). -/
def glyphAddr (b : Byte) : Word :=
  BitVec.ofNat 16 (Config.fontBase + Config.glyphBytes * (b &&& 0x0F#8).toNat)

end Sys2Proof.Machine
end

