-- ==== Sys2Proof/Machine/Flags.lean ====
section
/-! DEFINITION. Every value the machine writes to `VF` as a flag (spec/10_state.md R22) and the order of the two writes
(spec/42_alu.md R135). -/

namespace Sys2Proof.Machine

/-- A flag as the byte written to `VF`: 1 or 0. -/
def flagByte (c : Bool) : Byte := if c then 0x01#8 else 0x00#8

/-- The carry of `a + b` (R130, R136). -/
def carryFlag (a b : Byte) : Byte := flagByte (decide (a.toNat + b.toNat > 255))

/-- The no-borrow flag of `a - b`: 1 when `a ≥ b` (R130, R137, R139). -/
def noBorrowFlag (a b : Byte) : Byte := flagByte (decide (a.toNat ≥ b.toNat))

/-- The bit a right shift drops (R138). -/
def lowBitFlag (a : Byte) : Byte := flagByte (a.getLsbD 0)

/-- The bit a left shift drops (R140). -/
def highBitFlag (a : Byte) : Byte := flagByte (a.getLsbD 7)

/-- Steps 2 and 3 of R135: the flag is written to `VF` first, the result to `V[x]` second, both computed by the caller
from operands it captured before. -/
def State.writeFlagThen (s : State) (x : Nibble) (flag result : Byte) : State :=
  (s.setReg vfIdx flag).setReg x result

/-- The end of DrawSprite's blit: `VF` becomes the collision bit and the draw flag is set (R172). -/
def State.finishBlit (s : State) (coll : Bool) : State :=
  (s.setReg vfIdx (flagByte coll)).setDraw

end Sys2Proof.Machine
end

