-- ==== Sys2Proof/Machine/Alu.lean ====
section
/-! DEFINITION. Register arithmetic, logic and RandomAnd (spec/42_alu.md R130 to R144). -/

namespace Sys2Proof.Machine

/-- LoadValue (R132). -/
def execLoadValue (x : Nibble) (nn : Byte) (s : State) : Host.Outcome State Fault Refusal :=
  .next (s.setReg x nn)

/-- AddValue (R133): no flag. -/
def execAddValue (x : Nibble) (nn : Byte) (s : State) : Host.Outcome State Fault Refusal :=
  .next (s.setReg x (s.reg x + nn))

/-- LoadRegister (R134). -/
def execLoadRegister (x y : Nibble) (s : State) : Host.Outcome State Fault Refusal :=
  .next (s.setReg x (s.reg y))

/-- Or (R142): `VF` is not reset. -/
def execOr (x y : Nibble) (s : State) : Host.Outcome State Fault Refusal :=
  .next (s.setReg x (s.reg x ||| s.reg y))

/-- And (R143): `VF` is not reset. -/
def execAnd (x y : Nibble) (s : State) : Host.Outcome State Fault Refusal :=
  .next (s.setReg x (s.reg x &&& s.reg y))

/-- Xor (R144): `VF` is not reset. -/
def execXor (x y : Nibble) (s : State) : Host.Outcome State Fault Refusal :=
  .next (s.setReg x (s.reg x ^^^ s.reg y))

/-- AddRegisters (R136). -/
def execAddRegisters (x y : Nibble) (s : State) : Host.Outcome State Fault Refusal :=
  let a := s.reg x
  let b := s.reg y
  .next (s.writeFlagThen x (carryFlag a b) (a + b))

/-- SubtractRegisters (R137). -/
def execSubtractRegisters (x y : Nibble) (s : State) : Host.Outcome State Fault Refusal :=
  let a := s.reg x
  let b := s.reg y
  .next (s.writeFlagThen x (noBorrowFlag a b) (a - b))

/-- ShiftRight (R138): in place, bit 7 becomes 0. -/
def execShiftRight (x : Nibble) (s : State) : Host.Outcome State Fault Refusal :=
  let a := s.reg x
  .next (s.writeFlagThen x (lowBitFlag a) (a >>> 1))

/-- ReverseSubtract (R139). -/
def execReverseSubtract (x y : Nibble) (s : State) : Host.Outcome State Fault Refusal :=
  let a := s.reg x
  let b := s.reg y
  .next (s.writeFlagThen x (noBorrowFlag b a) (b - a))

/-- ShiftLeft (R140): in place, bit 0 becomes 0. -/
def execShiftLeft (x : Nibble) (s : State) : Host.Outcome State Fault Refusal :=
  let a := s.reg x
  .next (s.writeFlagThen x (highBitFlag a) (a <<< 1))

/-- RandomAnd (R141): the byte on the port `rnd`, masked. -/
def execRandomAnd (x : Nibble) (nn : Byte) (s : State) : Host.Outcome State Fault Refusal :=
  .next (s.setReg x (s.inputs.rnd &&& nn))

end Sys2Proof.Machine
end

