-- ==== Sys2Proof/Machine/ControlFlow.lean ====
section
/-! DEFINITION. The control transfer instructions (spec/41_control_flow.md R110 to R119). In each, `pc` is already the
address of the following instruction. -/

namespace Sys2Proof.Machine

/-- Return (R111). -/
def execReturn (s : State) : Host.Outcome State Fault Refusal :=
  Result.outcome <|
    match s.pop with
    | .error f => .raised f s
    | .ok (w, t) => .done (t.setPc w)

/-- CallMachineCode (R112), under either setting of `CALLMC_POLICY`; the opcode it records is `0NNN`. -/
def execCallMachineCode (nnn : Addr) (s : State) : Host.Outcome State Fault Refusal :=
  Result.outcome <|
    match s.callmc with
    | .nop => .done s
    | .unsupported => .raised (.unsupported (zextAddr nnn) s.pc) s

/-- Jump (R113). -/
def execJump (nnn : Addr) (s : State) : Host.Outcome State Fault Refusal :=
  .next (s.setPc (zextAddr nnn))

/-- CallSubroutine (R114). -/
def execCallSubroutine (nnn : Addr) (s : State) : Host.Outcome State Fault Refusal :=
  Result.outcome <|
    match s.push s.pc with
    | .raised f t => .raised f t
    | .done t => .done (t.setPc (zextAddr nnn))

/-- SkipIfEqualValue (R115). -/
def execSkipIfEqualValue (x : Nibble) (nn : Byte) (s : State) : Host.Outcome State Fault Refusal :=
  (s.skipIf (s.reg x == nn)).outcome

/-- SkipIfNotEqualValue (R116). -/
def execSkipIfNotEqualValue (x : Nibble) (nn : Byte) (s : State) : Host.Outcome State Fault Refusal :=
  (s.skipIf (s.reg x != nn)).outcome

/-- SkipIfEqualRegister (R117). -/
def execSkipIfEqualRegister (x y : Nibble) (s : State) : Host.Outcome State Fault Refusal :=
  (s.skipIf (s.reg x == s.reg y)).outcome

/-- SkipIfNotEqualRegister (R118). -/
def execSkipIfNotEqualRegister (x y : Nibble) (s : State) : Host.Outcome State Fault Refusal :=
  (s.skipIf (s.reg x != s.reg y)).outcome

/-- JumpPlusV0 (R119): the 16-bit sum of `V[0]` and `NNN`, at most 0x10FE. -/
def execJumpPlusV0 (nnn : Addr) (s : State) : Host.Outcome State Fault Refusal :=
  .next (s.setPc (zextByte (s.reg 0x0#4) + zextAddr nnn))

end Sys2Proof.Machine
end

