-- ==== Sys2Proof/Machine/Display.lean ====
section
/-! DEFINITION. The display instructions and the collision detector (spec/44_display.md R170 to R172). -/

namespace Sys2Proof.Machine

/-- ClearScreen (R171). -/
def execClearScreen (s : State) : Host.Outcome State Fault Refusal :=
  .next (s.setFb FrameBuffer.clear).setDraw

/-- The rows `r`, `r + 1`, ... of DrawSprite, as many as the last argument but the state says: each reads its byte at
`I + r`, then toggles its pixels; after the last row `VF` and `draw` are written. A row that cannot be read raises
OutOfBounds, and the rows before it stay drawn (R172). -/
def blitRows (vx vy : Nat) : Nat → Nat → Bool → State → Result
  | 0, _, coll, s => .done (s.finishBlit coll)
  | n + 1, r, coll, s =>
    match s.readByte (s.effAddr r) with
    | .error f => .raised f s
    | .ok row =>
      let p := blitRow vx (vy + r) row (s.fb, coll)
      blitRows vx vy n (r + 1) p.2 (s.setFb p.1)

/-- DrawSprite (R172): the coordinates are captured before anything is written. -/
def execDrawSprite (x y n : Nibble) (s : State) : Host.Outcome State Fault Refusal :=
  (blitRows (s.reg x).toNat (s.reg y).toNat (rowCount n) 0 false s).outcome

end Sys2Proof.Machine
end

