-- ==== Sys2Proof/Machine/IndexMemory.lean ====
section
/-! DEFINITION. The index register, loads and stores (spec/43_index_memory.md R150 to R156). No load or store changes
`I` (R156). -/

namespace Sys2Proof.Machine

/-- LoadIndex (R150). -/
def execLoadIndex (nnn : Addr) (s : State) : Host.Outcome State Fault Refusal :=
  .next (s.setIndex (zextAddr nnn))

/-- AddToIndex (R151): modulo 65536, `VF` untouched. -/
def execAddToIndex (x : Nibble) (s : State) : Host.Outcome State Fault Refusal :=
  .next (s.setIndex (s.i + zextByte (s.reg x)))

/-- LoadSpriteLocation (R152). -/
def execLoadSpriteLocation (x : Nibble) (s : State) : Host.Outcome State Fault Refusal :=
  .next (s.setIndex (glyphAddr (s.reg x)))

/-- StoreBCD (R153). -/
def execStoreBCD (x : Nibble) (s : State) : Host.Outcome State Fault Refusal :=
  (s.storeBytes (s.effAddr 0) (bcdDigits (s.reg x))).outcome

/-- StoreRegisters (R154). -/
def execStoreRegisters (x : Nibble) (s : State) : Host.Outcome State Fault Refusal :=
  (s.storeBytes (s.effAddr 0) (s.regsUpTo x)).outcome

/-- LoadRegisters (R155). -/
def execLoadRegisters (x : Nibble) (s : State) : Host.Outcome State Fault Refusal :=
  (s.loadRegsFrom (s.effAddr 0) 0 (x.toNat + 1)).outcome

end Sys2Proof.Machine
end

