-- ==== Sys2Proof/Machine/KeysTimers.lean ====
section
/-! DEFINITION. Keypad and timer instructions (spec/45_keys_timers.md R180 to R185). -/

namespace Sys2Proof.Machine

/-- The key test shared by the two key skips: the whole register is the index, above 15 it faults, and only then is
`Next()` tried (R180, R181, R213). -/
def State.skipOnKey (s : State) (x : Nibble) (pressed : Bool) : Result :=
  if (s.reg x).toNat > 15 then .raised (.keyIndexOutOfRange (s.reg x)) s
  else s.skipIf (s.key (s.reg x).toNat == pressed)

/-- SkipIfKeyPressed (R180). -/
def execSkipIfKeyPressed (x : Nibble) (s : State) : Host.Outcome State Fault Refusal :=
  (s.skipOnKey x true).outcome

/-- SkipIfKeyNotPressed (R181). -/
def execSkipIfKeyNotPressed (x : Nibble) (s : State) : Host.Outcome State Fault Refusal :=
  (s.skipOnKey x false).outcome

/-- WaitForKey (R182): the least held key, or `Restore()` back onto this instruction. -/
def execWaitForKey (x : Nibble) (s : State) : Host.Outcome State Fault Refusal :=
  Result.outcome <|
    match s.lowestKey with
    | some j => .done (s.setReg x (BitVec.ofNat 8 j))
    | none => s.pcRestore

/-- LoadDelayTimer (R183): the value before this cycle's tick. -/
def execLoadDelayTimer (x : Nibble) (s : State) : Host.Outcome State Fault Refusal :=
  .next (s.setReg x s.dt)

/-- SetDelayTimer (R184). -/
def execSetDelayTimer (x : Nibble) (s : State) : Host.Outcome State Fault Refusal :=
  .next (s.setDelay (s.reg x))

/-- SetSoundTimer (R185). -/
def execSetSoundTimer (x : Nibble) (s : State) : Host.Outcome State Fault Refusal :=
  .next (s.setSound (s.reg x))

end Sys2Proof.Machine
end

