-- ==== Sys2Proof/Machine/Dispatch.lean ====
section
/-! DEFINITION. The executor (spec/40_cycle.md R95): one arm per instruction kind, in the order of the opcode table. -/

namespace Sys2Proof.Machine

def exec (i : Instr) (s : State) : Host.Outcome State Fault Refusal :=
  match i with
  | .clearScreen => Sys2Proof.Machine.execClearScreen s
  | .ret => Sys2Proof.Machine.execReturn s
  | .callMachineCode nnn => Sys2Proof.Machine.execCallMachineCode nnn s
  | .jump nnn => Sys2Proof.Machine.execJump nnn s
  | .callSubroutine nnn => Sys2Proof.Machine.execCallSubroutine nnn s
  | .skipIfEqualValue x nn => Sys2Proof.Machine.execSkipIfEqualValue x nn s
  | .skipIfNotEqualValue x nn => Sys2Proof.Machine.execSkipIfNotEqualValue x nn s
  | .skipIfEqualRegister x y => Sys2Proof.Machine.execSkipIfEqualRegister x y s
  | .loadValue x nn => Sys2Proof.Machine.execLoadValue x nn s
  | .addValue x nn => Sys2Proof.Machine.execAddValue x nn s
  | .loadRegister x y => Sys2Proof.Machine.execLoadRegister x y s
  | .or x y => Sys2Proof.Machine.execOr x y s
  | .and x y => Sys2Proof.Machine.execAnd x y s
  | .xor x y => Sys2Proof.Machine.execXor x y s
  | .addRegisters x y => Sys2Proof.Machine.execAddRegisters x y s
  | .subtractRegisters x y => Sys2Proof.Machine.execSubtractRegisters x y s
  | .shiftRight x => Sys2Proof.Machine.execShiftRight x s
  | .reverseSubtract x y => Sys2Proof.Machine.execReverseSubtract x y s
  | .shiftLeft x => Sys2Proof.Machine.execShiftLeft x s
  | .skipIfNotEqualRegister x y => Sys2Proof.Machine.execSkipIfNotEqualRegister x y s
  | .loadIndex nnn => Sys2Proof.Machine.execLoadIndex nnn s
  | .jumpPlusV0 nnn => Sys2Proof.Machine.execJumpPlusV0 nnn s
  | .randomAnd x nn => Sys2Proof.Machine.execRandomAnd x nn s
  | .drawSprite x y n => Sys2Proof.Machine.execDrawSprite x y n s
  | .skipIfKeyPressed x => Sys2Proof.Machine.execSkipIfKeyPressed x s
  | .skipIfKeyNotPressed x => Sys2Proof.Machine.execSkipIfKeyNotPressed x s
  | .loadDelayTimer x => Sys2Proof.Machine.execLoadDelayTimer x s
  | .waitForKey x => Sys2Proof.Machine.execWaitForKey x s
  | .setDelayTimer x => Sys2Proof.Machine.execSetDelayTimer x s
  | .setSoundTimer x => Sys2Proof.Machine.execSetSoundTimer x s
  | .addToIndex x => Sys2Proof.Machine.execAddToIndex x s
  | .loadSpriteLocation x => Sys2Proof.Machine.execLoadSpriteLocation x s
  | .storeBCD x => Sys2Proof.Machine.execStoreBCD x s
  | .storeRegisters x => Sys2Proof.Machine.execStoreRegisters x s
  | .loadRegisters x => Sys2Proof.Machine.execLoadRegisters x s

end Sys2Proof.Machine
end

