-- ==== Sys2Proof/Machine/HostCommands.lean ====
section
/-! DEFINITION. The commands of the host (spec/70_reset_and_hazards.md R241 to R249), each served at a cycle boundary
(D2). A command that fails or is refused changes nothing but the answer (R200, D32). -/

namespace Sys2Proof.Machine

/-- The answer to the command, with nothing else changed. -/
def State.answer (s : State) (r : HostReply) : State := { s with reply := some r }

/-- Memory after the load of `Initialize` (R241): all zero, then `FONT` at `FONT_BASE`, then the ROM at `ENTRY`. It starts
from memory with nothing written, whose bytes are 0x00 outside the 80 that `FONT` overwrites. -/
def loadedMemory (font : Vector Byte 80) (rom : List Byte) : Memory :=
  (Memory.writeBytes [] Config.fontBase font.toList).writeBytes Config.entry.toNat rom

/-- `Initialize(rom)` (R241): refused while running (R247), InvalidRom if too long, else every piece of state is reset,
`FONT` and the ROM are loaded and the fault latch is clear. The parameters and the ports are not the machine's state. -/
def hostInitialize (rom : List Byte) (s : State) : State :=
  if s.running then s.answer .refused
  else if rom.length > Config.romMax then s.answer (.failed (.invalidRom rom.length))
  else
    { State.reset with
      mem := loadedMemory s.font rom
      callmc := s.callmc
      font := s.font
      script := s.script
      ticks := s.ticks
      reply := some .done }

/-- The effect of a `Start` that is not refused (R244): `pc` is seeded once per load. -/
def State.begin (s : State) : State :=
  { s with pc := if s.started then s.pc else Config.entry, started := true, running := true }

/-- `Start` (R244), its three checks in the spec's order. -/
def hostStart (s : State) : State :=
  if s.running then s.answer (.failed .alreadyRunning)
  else if s.fault.isSome then s.answer .refused
  else if !s.initialized then s.answer .refused
  else { s.begin with out := s.out ++ [.started], reply := some .done }

/-- `Stop` (R246): nothing but `running` changes. -/
def hostStop (s : State) : State :=
  if s.running then { s with running := false, out := s.out ++ [.stopped], reply := some .done }
  else s.answer (.failed .alreadyStopped)

/-- `load(bytes, offset)` (R248): only while stopped; the bound is checked before the copy (log 8 for the address). -/
def hostLoad (bytes : List Byte) (offset : Nat) (s : State) : State :=
  if s.running then s.answer .refused
  else if offset + bytes.length > Config.memSize then s.answer (.failed (.outOfBounds (max offset Config.memSize)))
  else { s with mem := s.mem.writeBytes offset bytes, reply := some .done }

/-- `setKeyState(index, pressed)` (R249): one flag and the draw flag; refused above 15 (D34) and, as a write of state,
while running (R250, log 9). -/
def hostSetKeyState (index : Nat) (pressed : Bool) (s : State) : State :=
  if s.running then s.answer .refused
  else if h : index < 16 then { s with k := s.k.set index pressed h, draw := true, reply := some .done }
  else s.answer .refused

/-- One command of the host. -/
def serveCommand : HostCommand → State → State
  | .initRom rom, s => hostInitialize rom s
  | .start, s => hostStart s
  | .stop, s => hostStop s
  | .load bytes offset, s => hostLoad bytes offset s
  | .setKeyState index pressed, s => hostSetKeyState index pressed s

end Sys2Proof.Machine
end

