-- ==== Sys2Proof/Machine/Cycle.lean ====
section
/-! DEFINITION. The cycle (spec/40_cycle.md R90 to R101): key sample, fetch, advance, decode, execute, then the outputs
and the timer tick; pacing (R102) is timing and has no state. -/

namespace Sys2Proof.Machine

/-- The outputs and the answer of the last step are taken back: each strobe stands for one step. -/
def State.clearOutputs (s : State) : State := { s with out := [], reply := none }

/-- The step's entry of the script is used up, and the next step reads the ports at its own tick (log 1). -/
def State.advanceInputs (s : State) : State := { s with script := s.script.tail, ticks := s.ticks + 1 }

/-- The 16 key flags of a value of the port: bit `k` is logical key `k` (R91). -/
def keysOf (w : BitVec 16) : Vector Bool 16 :=
  #v[w.getLsbD 0, w.getLsbD 1, w.getLsbD 2, w.getLsbD 3, w.getLsbD 4, w.getLsbD 5, w.getLsbD 6, w.getLsbD 7,
    w.getLsbD 8, w.getLsbD 9, w.getLsbD 10, w.getLsbD 11, w.getLsbD 12, w.getLsbD 13, w.getLsbD 14, w.getLsbD 15]

/-- Step 1 (R91): all 16 key flags are overwritten from the port. -/
def State.sampleKeys (s : State) : State := { s with k := keysOf s.inputs.keyIn }

/-- One timer's countdown (R100). -/
def tickTimer (t : Byte) : Byte := if t.toNat > 0 then t - 1#8 else t

/-- Steps 6 and 7 (R97, R98): `updated`, then `frame_ready` where the draw flag is set, which it clears. -/
def State.notify (s : State) : State :=
  if s.draw then { s with out := s.out ++ [.updated, .frameReady], draw := false }
  else { s with out := s.out ++ [.updated] }

/-- Step 8 (R100): both timers, independently. -/
def State.tickTimers (s : State) : State := { s with dt := tickTimer s.dt, st := tickTimer s.st }

/-- Step 9 (R101): `beep` where the sound timer is above 0 after its tick. -/
def State.soundBeep (s : State) : State := if s.st.toNat > 0 then { s with out := s.out ++ [.beep] } else s

/-- Steps 6 to 9; none of them is performed in a cycle that faulted (R96). -/
def State.endCycle (s : State) : State := if s.fault.isSome then s else s.notify.tickTimers.soundBeep

/-- What follows execution in the cycle, on the executor's outcome. -/
def closeCycle : Host.Outcome State Fault Refusal → Host.Outcome State Fault Refusal
  | .next s => .next s.endCycle
  | .fault r => .fault r
  | .refused r => .refused r

/-- Steps 4 to 9: decode (R94: an unknown opcode is a fault with the advanced `pc`), execute, end. -/
def decodeAndExecute (op : Word) (s : State) : Host.Outcome State Fault Refusal :=
  match decode op with
  | .error _ => .next (takeFault (.unknownOpcode op s.pc) s)
  | .ok i => closeCycle (exec i s)

/-- Steps 2 to 9: fetch (R92), advance (R93), and the rest. -/
def fetchAndExecute (s : State) : Host.Outcome State Fault Refusal :=
  match s.fetchWord with
  | .error f => .next (takeFault f s)
  | .ok op =>
    match s.pcNext with
    | .raised f t => .next (takeFault f t)
    | .done t => decodeAndExecute op t

/-- One cycle of a running core (R90). -/
def cycle (s : State) : Host.Outcome State Fault Refusal := fetchAndExecute s.sampleKeys

/-- The core's part of a step: a cycle where `running = 1` and `fault = None`, else no step at all (R90, R214). -/
def coreStep (s : State) : Host.Outcome State Fault Refusal :=
  match s.fault with
  | some f => .fault (.coreFaulted f)
  | none => if s.running then cycle s else .fault .coreStopped

/-- One step before the inputs move on: the host's command where one stands at this boundary, else the core. -/
def stepOnce (s : State) : Host.Outcome State Fault Refusal :=
  match s.inputs.command with
  | some c => .next (serveCommand c s)
  | none => coreStep s

/-- The step's outcome with its inputs used up. -/
def advanceOutcome : Host.Outcome State Fault Refusal → Host.Outcome State Fault Refusal
  | .next s => .next s.advanceInputs
  | .fault r => .fault r
  | .refused r => .refused r

/-! ## Placing an instruction for the next step -/

/-- The script with no command at the coming step; what its ports carry is kept. -/
def quietScript : List PortInput → List PortInput
  | [] => []
  | p :: ps => { p with command := none } :: ps

/-- `s` as a core about to take a cycle: the effect of `Start` where it is not running, no fault latched, no host command
at this boundary, and `pc` brought to the entry point where no instruction can execute at it (R93: above 4093). -/
def State.readyToRun (s : State) : State :=
  let t := if s.running then s else s.begin
  { t with
    fault := none
    pc := if t.pc.toNat ≤ 4093 then t.pc else Config.entry
    script := quietScript t.script }

/-- The word `op` stored where the next cycle fetches (R50). -/
def State.placeWord (s : State) (op : Word) : State :=
  s.setMem (s.mem.writeBytes s.pc.toNat [highByte op, lowByte op])

end Sys2Proof.Machine
end

