-- ==== Sys2Proof/Machine/Step.lean ====
section
/-! DEFINITION. One step of the machine, and the placing of one instruction for it. What a step does is in
Machine/Cycle.lean and Machine/HostCommands.lean. -/

namespace Sys2Proof.Machine

/-- One step: the host command that stands at this cycle boundary, or one whole cycle of the core (spec/40_cycle.md R90),
with the outputs of the last step taken back first. -/
def step (s : State) : Host.Outcome State Fault Refusal := advanceOutcome (stepOnce s.clearOutputs)

/-- `s` with the instruction of table bits `w` stored where the next step fetches, and the core about to run it (log 7). -/
def State.withFetchWord (s : State) (nbits w : Nat) : State := s.readyToRun.placeWord (tableWord nbits w)

end Sys2Proof.Machine
end

