-- ==== Sys2Proof/Safety.lean ====
section
/-! DEFINITION. The terms claims about the machine are stated in: a safe state, the invariant of the machine, frames, the
closed form of a sprite, and what each instruction may write. -/

namespace Sys2Proof.Machine

/-! ## Safe states and the invariant -/

/-- A safe state: no fault is latched. -/
def State.safe (s : State) : Prop := s.fault = none

/-- The words that raise UnknownOpcode, as the table of spec/30_encoding.md R80 lists them, on the number of the word. -/
def illegalWord (op : Word) : Bool :=
  let seg := op.toNat / 4096
  let nnn := op.toNat % 4096
  let nn := op.toNat % 256
  let n := op.toNat % 16
  (seg == 0 && 0x200 ≤ nnn)
  || (seg == 8 && [0x8, 0x9, 0xA, 0xB, 0xC, 0xD, 0xF].contains n)
  || (seg == 0xE && !([0x9E, 0xA1].contains nn))
  || (seg == 0xF && !([0x07, 0x0A, 0x15, 0x18, 0x1E, 0x29, 0x33, 0x55, 0x65].contains nn))

/-- The faults a core can latch, each with the condition under which it is raised (spec/60_exceptions.md R200 to R209).
The command faults are never latched (D32) and ProgramCounterUnderflow is never raised in a run (R208). -/
def CoreFault.truthful : CoreFault → Prop
  | .outOfBounds a => 4096 ≤ a ∧ a ≤ 0xFFFF + 15
  | .stackOverflow sp => sp.val = 15
  | .stackUnderflow => True
  | .unknownOpcode op _ => illegalWord op = true
  | .programCounterOverflow pc => 4096 ≤ pc.toNat + 2 ∧ pc.toNat < 4096
  | .unsupported op _ => op.toNat < 0x200
  | .keyIndexOutOfRange x => 15 < x.toNat
  | .invalidRom _ => False
  | .alreadyRunning => False
  | .alreadyStopped => False
  | .programCounterUnderflow _ => False

/-- The invariant of the machine: memory is in canonical form; `pc` is at most 0x10FE (R23); every stack entry is an
address below 4096 and entry 0 keeps its reset value (R27, R111); a running core was initialized and started and has no
fault latched (R34, R244, R214); a latched fault is one a core raises, with truthful information. -/
structure State.Inv (s : State) : Prop where
  mem_wf : s.mem.wf = true
  pc_le : s.pc.toNat ≤ 0x10FE
  stack_lt : ∀ j : Fin 16, (s.stack[j.val]).toNat < 4096
  stack_zero : s.stack[0] = 0x0000#16
  running_ok : s.running = true → s.initialized = true ∧ s.started = true ∧ s.fault = none
  fault_ok : ∀ f, s.fault = some f → f.truthful

/-! ## Frames -/

/-- Every byte of memory reads in `t` as it does in `s`. -/
def SameMemory (s t : State) : Prop := ∀ a, t.mem.read a = s.mem.read a

/-- `t` is `s` but for general registers, of which those not in `written` are unchanged. -/
def OnlyRegs (s t : State) (written : List Nibble) : Prop :=
  (∀ r, r ∉ written → t.reg r = s.reg r) ∧ t = { s with v := t.v } ∧ SameMemory s t

/-- `t` is `s` but for `pc`. -/
def OnlyPc (s t : State) : Prop := t = { s with pc := t.pc } ∧ SameMemory s t

/-- `t` is `s` but for memory. -/
def OnlyMemory (s t : State) : Prop := t = { s with mem := t.mem }

/-- A core at a cycle boundary that takes a cycle next: running, no fault latched, no host command (R90). -/
abbrev State.canCycle (s : State) : Prop := s.running = true ∧ s.fault = none ∧ s.inputs.command = none

/-- The state in which the executor finds a cycle of `s`: outputs taken back, keys sampled, `pc` advanced by 2. -/
def State.atExecute (s : State) : State := s.clearOutputs.sampleKeys.setPc (s.pc + 2#16)

/-- The instruction at `pc` is `i`: an instruction can be fetched there (R93) and its two bytes decode to `i`. -/
abbrev State.fetches (s : State) (i : Instr) : Prop :=
  s.pc.toNat ≤ 4093 ∧ decode (wordOfBytes (s.mem.read s.pc.toNat) (s.mem.read (s.pc.toNat + 1))) = .ok i

/-- The answer `r` to the host command of a step of `s`, and nothing else changed (D32). -/
def State.answered (s : State) (r : HostReply) : State :=
  { s with out := [], reply := some r, script := s.script.tail, ticks := s.ticks + 1 }

/-! ## Sprites (spec/44_display.md R172) in closed form -/

/-- Whether the sprite of the first `n` bytes at `I` in `s`, placed at column `vx`, row `vy`, has a 1 bit at the pixel of
row `y`, column `x`: some row `r` and column `c` of it land there and bit `7 - c` of its byte is 1. -/
def spriteAt (s : State) (vx vy n y x : Nat) : Bool :=
  (List.range n).any fun r => (List.range 8).any fun c =>
    (vy + r) % 32 == y && (vx + c) % 64 == x && (s.mem.read (s.i.toNat + r)).getLsbD (7 - c)

/-- Whether some lit pixel of `s` lies under a 1 bit of that sprite, so goes from 1 to 0. -/
def spriteHits (s : State) (vx vy n : Nat) : Bool :=
  (List.range 32).any fun y => (List.range 64).any fun x => spriteAt s vx vy n y x && s.fb.pixel y x

/-! ## What an instruction may write (spec/10_state.md R21, R22) -/

/-- Whether instruction `i` may write `V[r]`: the destination `X` of R21, `V[0]` to `V[X]` for LoadRegisters, and `VF` for
the six kinds of R22's table. -/
def mayWriteReg : Instr → Nibble → Bool
  | .loadValue x _, r | .addValue x _, r | .loadRegister x _, r | .or x _, r | .and x _, r | .xor x _, r
  | .randomAnd x _, r | .loadDelayTimer x, r | .waitForKey x, r => r == x
  | .addRegisters x _, r | .subtractRegisters x _, r | .shiftRight x, r | .reverseSubtract x _, r
  | .shiftLeft x, r => r == x || r == vfIdx
  | .drawSprite _ _ _, r => r == vfIdx
  | .loadRegisters x, r => r.toNat ≤ x.toNat
  | .clearScreen, _ | .ret, _ | .callMachineCode _, _ | .jump _, _ | .callSubroutine _, _ | .skipIfEqualValue _ _, _
  | .skipIfNotEqualValue _ _, _ | .skipIfEqualRegister _ _, _ | .skipIfNotEqualRegister _ _, _ | .loadIndex _, _
  | .jumpPlusV0 _, _ | .skipIfKeyPressed _, _ | .skipIfKeyNotPressed _, _ | .setDelayTimer _, _ | .setSoundTimer _, _
  | .addToIndex _, _ | .loadSpriteLocation _, _ | .storeBCD _, _ | .storeRegisters _, _ => false

/-- The instructions that write `I` (R25, R156). -/
def writesIndex : Instr → Bool
  | .loadIndex _ | .addToIndex _ | .loadSpriteLocation _ => true
  | _ => false

/-- The instructions that store to memory (R53). -/
def storesMemory : Instr → Bool
  | .storeBCD _ | .storeRegisters _ => true
  | _ => false

/-- The instructions that touch the framebuffer and set the draw flag (R31, R33). -/
def drawsScreen : Instr → Bool
  | .clearScreen | .drawSprite _ _ _ => true
  | _ => false

/-- The instructions that touch the return stack (R26). -/
def usesStack : Instr → Bool
  | .ret | .callSubroutine _ => true
  | _ => false

/-- The instructions that write `pc` beyond the advance of their fetch (R23): the transfers, the six skips and WaitForKey. -/
def writesPc : Instr → Bool
  | .ret | .jump _ | .callSubroutine _ | .jumpPlusV0 _ | .skipIfEqualValue _ _ | .skipIfNotEqualValue _ _
  | .skipIfEqualRegister _ _ | .skipIfNotEqualRegister _ _ | .skipIfKeyPressed _ | .skipIfKeyNotPressed _
  | .waitForKey _ => true
  | _ => false

/-- Which faults an instruction may raise (the column "raised by" of spec/60_exceptions.md R200). -/
def mayRaise : Instr → CoreFault → Bool
  | .drawSprite _ _ _, .outOfBounds _ | .storeBCD _, .outOfBounds _ | .storeRegisters _, .outOfBounds _
  | .loadRegisters _, .outOfBounds _ => true
  | .callSubroutine _, .stackOverflow _ => true
  | .ret, .stackUnderflow => true
  | .skipIfEqualValue _ _, .programCounterOverflow _ | .skipIfNotEqualValue _ _, .programCounterOverflow _
  | .skipIfEqualRegister _ _, .programCounterOverflow _ | .skipIfNotEqualRegister _ _, .programCounterOverflow _
  | .skipIfKeyPressed _, .programCounterOverflow _ | .skipIfKeyNotPressed _, .programCounterOverflow _ => true
  | .waitForKey _, .programCounterUnderflow _ => true
  | .callMachineCode _, .unsupported _ _ => true
  | .skipIfKeyPressed _, .keyIndexOutOfRange _ | .skipIfKeyNotPressed _, .keyIndexOutOfRange _ => true
  | _, _ => false

end Sys2Proof.Machine
end

