-- ==== Sys2Proof/Certificates/Slice0/Obligations.lean ====
section
/-! DEFINITION. The statements for the provers. Each docstring names the rules of spec/ it formalises. In every statement
the arithmetic on the right is on numbers and bits, as the rule writes it, not the model's own operation. -/

open Sys2Proof Sys2Proof.Machine

/-! ## Encoding -/

/-- R70, R71, R74 to R79, R83: for EVERY well-formed instruction, at every value of its operands, decoding its word gives
it back, and so does decoding its two bytes with any bytes after them, which are returned. -/
def Obligations.DecodeInvertsEncode : Prop :=
  ∀ (i : Instr) (rest : List Byte), i.wf = true →
    decode (encode i) = .ok i ∧ decodeBytes (encodeBytes i ++ rest) = .ok (i, rest)

/-- R74 to R76, the other direction: a word that decodes has the fixed bits of its row of the table, decodes to a
well-formed instruction, and is that instruction's word but for the nibble the row ignores. -/
def Obligations.DecodeMatchesOpcodeTable : Prop :=
  ∀ (op : Word) (i : Instr), decode op = .ok i →
    i.wf = true ∧ op &&& i.mask = i.matchBits ∧ encode i = op &&& i.usedBits

/-- R80: exactly the words of its table do not decode; every other word decodes. -/
def Obligations.IllegalWordsExactly : Prop :=
  ∀ op : Word,
    (illegalWord op = true → decode op = .error (.unknownOpcode op)) ∧
    (illegalWord op = false → ∃ i, decode op = .ok i)

/-- R72, R75 to R80, on words written out from the spec (95_test_vectors.md S2, S3, T1 to T19). -/
def Obligations.WrittenOutWordsDecode : Prop :=
  decode 0x00E0#16 = .ok .clearScreen ∧ decode 0x00EE#16 = .ok .ret ∧
  decode 0x01E0#16 = .ok (.callMachineCode 0x1E0#12) ∧ decode 0x2ABC#16 = .ok (.callSubroutine 0xABC#12) ∧
  decode 0x5121#16 = .ok (.skipIfEqualRegister 0x1#4 0x2#4) ∧ decode 0x6A3C#16 = .ok (.loadValue 0xA#4 0x3C#8) ∧
  decode 0x912F#16 = .ok (.skipIfNotEqualRegister 0x1#4 0x2#4) ∧ decode 0xA123#16 = .ok (.loadIndex 0x123#12) ∧
  decode 0xBFFF#16 = .ok (.jumpPlusV0 0xFFF#12) ∧ decode 0xC30F#16 = .ok (.randomAnd 0x3#4 0x0F#8) ∧
  decode 0xD015#16 = .ok (.drawSprite 0x0#4 0x1#4 0x5#4) ∧ decode 0xFA33#16 = .ok (.storeBCD 0xA#4) ∧
  decode 0x0200#16 = .error (.unknownOpcode 0x0200#16) ∧ decode 0x8128#16 = .error (.unknownOpcode 0x8128#16) ∧
  decode 0xE00E#16 = .error (.unknownOpcode 0xE00E#16) ∧ decode 0xF0FF#16 = .error (.unknownOpcode 0xF0FF#16)

/-! ## The cycle -/

/-- R90 to R95: a running core with no host command at this boundary, whose two bytes at `pc` decode to `i`, executes
exactly `i`, on the state with the keys sampled from `key_in`, `pc` advanced by 2 and nothing else changed (the model's own
output and answer fields are taken back); then the cycle's end, and the step's inputs are used up. -/
def Obligations.StepRunsDecodedInstruction : Prop :=
  ∀ (s : State) (i : Instr), s.canCycle → s.fetches i →
    (∃ t, exec i s.atExecute = .next t ∧ step s = .next t.endCycle.advanceInputs) ∧
    s.atExecute.pc.toNat = s.pc.toNat + 2 ∧
    (∀ j < 16, s.atExecute.key j = s.inputs.keyIn.getLsbD j) ∧
    s.atExecute = { s with k := s.atExecute.k, pc := s.atExecute.pc, out := [], reply := none }

/-- R92, R93, R213: a fetch at or above 4095 faults with the first address outside memory, a fetch at 4094 reads its bytes
and then overflows whatever they are; `pc` is not moved, the key sample stays. -/
def Obligations.FetchFaultsAtTheTopOfMemory : Prop :=
  ∀ s : State, s.canCycle →
    (4096 ≤ s.pc.toNat →
      step s = .next (takeFault (.outOfBounds s.pc.toNat) s.clearOutputs.sampleKeys).advanceInputs) ∧
    (s.pc.toNat = 4095 → step s = .next (takeFault (.outOfBounds 4096) s.clearOutputs.sampleKeys).advanceInputs) ∧
    (s.pc.toNat = 4094 →
      step s = .next (takeFault (.programCounterOverflow s.pc) s.clearOutputs.sampleKeys).advanceInputs)

/-- R94, R205: an illegal word raises UnknownOpcode with the word and the advanced `pc`; no state but the key sample and
`pc` has changed when it is raised. That the reported `pc` is the advanced one is an inference the spec marks as its own
(R94's `derived` mark; decision D27). -/
def Obligations.IllegalWordFaultsTheCycle : Prop :=
  ∀ (s : State) (op : Word), s.canCycle → s.pc.toNat ≤ 4093 →
    op = wordOfBytes (s.mem.read s.pc.toNat) (s.mem.read (s.pc.toNat + 1)) → illegalWord op = true →
    step s = .next (takeFault (.unknownOpcode op (s.pc + 2#16)) s.atExecute).advanceInputs

/-- R97 to R101: after an instruction that did not fault the strobes `updated`, `frame_ready` (where the draw flag is set,
which it clears) and `beep` (where the sound timer is above 0 after its tick) are raised in this order, each timer counts
down by exactly 1 and never below 0, and nothing else changes. -/
def Obligations.CompletedCycleEnds : Prop :=
  ∀ (s t : State) (i : Instr), s.canCycle → s.fetches i → exec i s.atExecute = .next t → t.fault = none →
    ∃ u, step s = .next u ∧
      u.dt.toNat = t.dt.toNat - 1 ∧ u.st.toNat = t.st.toNat - 1 ∧ u.draw = false ∧
      u.out = [.updated] ++ (if t.draw then [.frameReady] else []) ++ (if u.st.toNat > 0 then [.beep] else []) ∧
      u = { t with dt := u.dt, st := u.st, draw := u.draw, out := u.out,
                   script := s.script.tail, ticks := s.ticks + 1 }

/-- R96, R214, R215: a cycle that faults, wherever it does, stops the core: `running` is cleared, `fault_out` and `stopped`
are the only outputs, no timer ticks, the draw flag is as it was, the key sample stays; and the next step, with no host
command, is no step. The order of the two outputs is the model's reading (log 14), and that no step ends in the outcome
`coreFaulted` is its choice (log 13). -/
def Obligations.FaultedCycleStops : Prop :=
  ∀ (s t : State) (f : CoreFault), s.canCycle → step s = .next t → t.fault = some f →
    t.running = false ∧ t.out = [.faultOut f, .stopped] ∧ t.dt = s.dt ∧ t.st = s.st ∧ t.draw = s.draw ∧
    (∀ j < 16, t.key j = s.inputs.keyIn.getLsbD j) ∧
    (t.inputs.command = none → step t = .fault (.coreFaulted f))

/-- R90, R214: with no host command, a core that is stopped or has a fault latched takes no step. That the model's `step` then
ends in the outcome `coreStopped` or `coreFaulted` is its choice (log 13). -/
def Obligations.StoppedCoreTakesNoStep : Prop :=
  ∀ s : State, s.inputs.command = none →
    (s.fault = none → s.running = false → step s = .fault .coreStopped) ∧
    (∀ f, s.fault = some f → step s = .fault (.coreFaulted f))

/-- R91: after every cycle, completed or faulted, the key flags are the port's sample of that cycle. -/
def Obligations.KeysSampledEveryCycle : Prop :=
  ∀ s t : State, s.canCycle → step s = .next t → ∀ j < 16, t.key j = s.inputs.keyIn.getLsbD j

/-- The model's `withFetchWord` (log 7): a word that decodes, placed in any state, is the instruction the next step runs. -/
def Obligations.PlacedWordRuns : Prop :=
  ∀ (s : State) (w : Nat) (i : Instr), decodeTableWord 16 w = some i →
    (s.withFetchWord 16 w).canCycle ∧ (s.withFetchWord 16 w).fetches i ∧
    ∃ t, exec i (s.withFetchWord 16 w).atExecute = .next t ∧
      step (s.withFetchWord 16 w) = .next t.endCycle.advanceInputs

/-! ## The invariant -/

/-- The state after reset meets the machine's invariant. -/
def Obligations.InvariantHoldsAtReset : Prop := State.reset.Inv

/-- Every step, of the core or of the host, keeps the invariant (Safety.lean, `State.Inv`): memory stays canonical, `pc`
stays at most 0x10FE (R23), stack entries stay below 4096 and entry 0 is never written (R27, R111), a running core is
started and has no fault (R34, R214), and a latched fault is one a core raises, with truthful information (R200 to R209). -/
def Obligations.StepKeepsInvariant : Prop :=
  ∀ s t : State, s.Inv → step s = .next t → t.Inv

/-- R41 on the reset of the model, which is `Initialize` with the empty ROM (log 4) and the default font (log 3). -/
def Obligations.ResetStateValues : Prop :=
  (∀ r, State.reset.reg r = 0x00#8) ∧ State.reset.i = 0x0000#16 ∧ State.reset.pc = 0x0000#16 ∧
  State.reset.sp.val = 0 ∧ (∀ j : Fin 16, State.reset.stack[j.val] = 0x0000#16) ∧
  State.reset.dt = 0x00#8 ∧ State.reset.st = 0x00#8 ∧ (∀ y x, State.reset.fb.pixel y x = false) ∧
  (∀ j < 16, State.reset.key j = false) ∧ State.reset.draw = false ∧ State.reset.running = false ∧
  State.reset.started = false ∧ State.reset.fault = none ∧
  (∀ a, State.reset.mem.read a = if a < 80 then defaultFont.getD a 0x00#8 else 0x00#8)

/-! ## Control flow -/

/-- R24, the definitions of `Next()` and `Restore()`: they move `pc` by 2, or raise their fault with `pc` unchanged. The bounds
are the spec's decisions D6 and D7. -/
def Obligations.NextAndRestoreStepPc : Prop :=
  ∀ s : State,
    (s.pc.toNat + 2 < 4096 → ∃ t, s.pcNext = .done t ∧ t.pc.toNat = s.pc.toNat + 2 ∧ OnlyPc s t) ∧
    (4096 ≤ s.pc.toNat + 2 → s.pcNext = .raised (.programCounterOverflow s.pc) s) ∧
    (2 ≤ s.pc.toNat → ∃ t, s.pcRestore = .done t ∧ t.pc.toNat = s.pc.toNat - 2 ∧ OnlyPc s t) ∧
    (s.pc.toNat < 2 → s.pcRestore = .raised (.programCounterUnderflow s.pc) s)

/-- R28: `Push` writes the slot above the top and raises `SP`, or faults at 15 with nothing changed; `Pop` gives the top slot
and lowers `SP`, the slot keeping its value, or faults at 0. -/
def Obligations.PushAndPopMoveTheStack : Prop :=
  ∀ (s : State) (w : Word),
    (s.sp.val < 15 → ∃ t, s.push w = .done t ∧ t.sp.val = s.sp.val + 1 ∧
      (∀ j : Fin 16, t.stack[j.val] = if j.val = s.sp.val + 1 then w else s.stack[j.val]) ∧
      t = { s with sp := t.sp, stack := t.stack } ∧ SameMemory s t) ∧
    (s.sp.val = 15 → s.push w = .raised (.stackOverflow s.sp) s) ∧
    (0 < s.sp.val → ∃ t, s.pop = .ok (s.stack[s.sp.val], t) ∧ t.sp.val = s.sp.val - 1 ∧
      t = { s with sp := t.sp } ∧ SameMemory s t) ∧
    (s.sp.val = 0 → s.pop = .error .stackUnderflow)

/-- R111, with R28: Return pops where the stack is not empty; on an empty stack it raises StackUnderflow and changes
nothing else. -/
def Obligations.ReturnPopsStack : Prop :=
  decode 0x00EE#16 = .ok .ret ∧
  ∀ s : State,
    (0 < s.sp.val → ∃ t, exec .ret s = .next t ∧ t.pc = s.stack[s.sp.val] ∧ t.sp.val = s.sp.val - 1 ∧
      t = { s with pc := t.pc, sp := t.sp } ∧ SameMemory s t) ∧
    (s.sp.val = 0 → exec .ret s = .next (takeFault .stackUnderflow s))

/-- R112: CallMachineCode does nothing under the policy `NOP` and raises Unsupported with its opcode and `pc` under
`UNSUPPORTED`. -/
def Obligations.CallMachineCodeByPolicy : Prop :=
  ∀ (s : State) (nnn : Addr),
    (nnn.toNat < 0x200 → nnn ≠ 0x0E0#12 → nnn ≠ 0x0EE#12 → decode (encAddr 0x0#4 nnn) = .ok (.callMachineCode nnn)) ∧
    (s.callmc = .nop → exec (.callMachineCode nnn) s = .next s) ∧
    (s.callmc = .unsupported →
      exec (.callMachineCode nnn) s = .next (takeFault (.unsupported (encAddr 0x0#4 nnn) s.pc) s))

/-- R113, R119: Jump sets `pc` to `NNN`; JumpPlusV0 sets it to `V[0] + NNN`, which is never reduced. -/
def Obligations.JumpsSetPc : Prop :=
  ∀ (s : State) (nnn : Addr),
    decode (encAddr 0x1#4 nnn) = .ok (.jump nnn) ∧ decode (encAddr 0xB#4 nnn) = .ok (.jumpPlusV0 nnn) ∧
    (∃ t, exec (.jump nnn) s = .next t ∧ t.pc.toNat = nnn.toNat ∧ OnlyPc s t) ∧
    (∃ t, exec (.jumpPlusV0 nnn) s = .next t ∧ t.pc.toNat = (s.reg 0x0#4).toNat + nnn.toNat ∧ OnlyPc s t)

/-- R114, with R28: CallSubroutine pushes the advanced `pc` one slot up and jumps; at `SP = 15` it raises StackOverflow and
changes nothing else. -/
def Obligations.CallPushesReturnAddress : Prop :=
  ∀ (s : State) (nnn : Addr),
    decode (encAddr 0x2#4 nnn) = .ok (.callSubroutine nnn) ∧
    (s.sp.val < 15 → ∃ t, exec (.callSubroutine nnn) s = .next t ∧ t.pc.toNat = nnn.toNat ∧ t.sp.val = s.sp.val + 1 ∧
      (∀ j : Fin 16, t.stack[j.val] = if j.val = s.sp.val + 1 then s.pc else s.stack[j.val]) ∧
      t = { s with pc := t.pc, sp := t.sp, stack := t.stack } ∧ SameMemory s t) ∧
    (s.sp.val = 15 → exec (.callSubroutine nnn) s = .next (takeFault (.stackOverflow s.sp) s))

/-- R28, R111, R114 together: a Return that follows a call resumes after it, at the depth before it. -/
def Obligations.CallThenReturnResumes : Prop :=
  ∀ (s : State) (nnn : Addr), s.sp.val < 15 →
    ∃ t u, exec (.callSubroutine nnn) s = .next t ∧ exec .ret t = .next u ∧ u.pc = s.pc ∧ u.sp = s.sp ∧
      u.mem = s.mem ∧ (∀ r, u.reg r = s.reg r)

/-- R115, R116: the value skips step `pc` once more exactly where their condition holds, and overflow where that leaves
memory; no register is written. -/
def Obligations.ValueSkips : Prop :=
  ∀ (s : State) (x : Nibble) (nn : Byte),
    decode (encXNN 0x3#4 x nn) = .ok (.skipIfEqualValue x nn) ∧
    decode (encXNN 0x4#4 x nn) = .ok (.skipIfNotEqualValue x nn) ∧
    (s.reg x ≠ nn → exec (.skipIfEqualValue x nn) s = .next s) ∧
    (s.reg x = nn → exec (.skipIfNotEqualValue x nn) s = .next s) ∧
    (s.pc.toNat + 2 < 4096 →
      (s.reg x = nn → ∃ t, exec (.skipIfEqualValue x nn) s = .next t ∧ t.pc.toNat = s.pc.toNat + 2 ∧ OnlyPc s t) ∧
      (s.reg x ≠ nn → ∃ t, exec (.skipIfNotEqualValue x nn) s = .next t ∧ t.pc.toNat = s.pc.toNat + 2 ∧ OnlyPc s t)) ∧
    (4096 ≤ s.pc.toNat + 2 →
      (s.reg x = nn → exec (.skipIfEqualValue x nn) s = .next (takeFault (.programCounterOverflow s.pc) s)) ∧
      (s.reg x ≠ nn → exec (.skipIfNotEqualValue x nn) s = .next (takeFault (.programCounterOverflow s.pc) s)))

/-- R117, R118, with R75: the same for the register skips, whose low nibble is ignored. -/
def Obligations.RegisterSkips : Prop :=
  ∀ (s : State) (x y n : Nibble),
    decode (encXYN 0x5#4 x y n) = .ok (.skipIfEqualRegister x y) ∧
    decode (encXYN 0x9#4 x y n) = .ok (.skipIfNotEqualRegister x y) ∧
    (s.reg x ≠ s.reg y → exec (.skipIfEqualRegister x y) s = .next s) ∧
    (s.reg x = s.reg y → exec (.skipIfNotEqualRegister x y) s = .next s) ∧
    (s.pc.toNat + 2 < 4096 →
      (s.reg x = s.reg y →
        ∃ t, exec (.skipIfEqualRegister x y) s = .next t ∧ t.pc.toNat = s.pc.toNat + 2 ∧ OnlyPc s t) ∧
      (s.reg x ≠ s.reg y →
        ∃ t, exec (.skipIfNotEqualRegister x y) s = .next t ∧ t.pc.toNat = s.pc.toNat + 2 ∧ OnlyPc s t)) ∧
    (4096 ≤ s.pc.toNat + 2 →
      (s.reg x = s.reg y → exec (.skipIfEqualRegister x y) s = .next (takeFault (.programCounterOverflow s.pc) s)) ∧
      (s.reg x ≠ s.reg y → exec (.skipIfNotEqualRegister x y) s = .next (takeFault (.programCounterOverflow s.pc) s)))

/-! ## Registers and arithmetic -/

/-- R132, R133: LoadValue writes `NN`; AddValue adds it modulo 256 and writes no flag, `VF` only as its destination. -/
def Obligations.LoadAndAddValue : Prop :=
  ∀ (s : State) (x : Nibble) (nn : Byte),
    decode (encXNN 0x6#4 x nn) = .ok (.loadValue x nn) ∧ decode (encXNN 0x7#4 x nn) = .ok (.addValue x nn) ∧
    (∃ t, exec (.loadValue x nn) s = .next t ∧ t.reg x = nn ∧ OnlyRegs s t [x]) ∧
    (∃ t, exec (.addValue x nn) s = .next t ∧ (t.reg x).toNat = ((s.reg x).toNat + nn.toNat) % 256 ∧ OnlyRegs s t [x])

/-- R134, R142, R143, R144: the copy and the three bitwise operations write `V[X]` only; `VF` is not reset. -/
def Obligations.CopyAndLogic : Prop :=
  ∀ (s : State) (x y : Nibble),
    decode (encXYN 0x8#4 x y 0x0#4) = .ok (.loadRegister x y) ∧ decode (encXYN 0x8#4 x y 0x1#4) = .ok (.or x y) ∧
    decode (encXYN 0x8#4 x y 0x2#4) = .ok (.and x y) ∧ decode (encXYN 0x8#4 x y 0x3#4) = .ok (.xor x y) ∧
    (∃ t, exec (.loadRegister x y) s = .next t ∧ t.reg x = s.reg y ∧ OnlyRegs s t [x]) ∧
    (∃ t, exec (.or x y) s = .next t ∧
      (∀ j < 8, (t.reg x).getLsbD j = ((s.reg x).getLsbD j || (s.reg y).getLsbD j)) ∧ OnlyRegs s t [x]) ∧
    (∃ t, exec (.and x y) s = .next t ∧
      (∀ j < 8, (t.reg x).getLsbD j = ((s.reg x).getLsbD j && (s.reg y).getLsbD j)) ∧ OnlyRegs s t [x]) ∧
    (∃ t, exec (.xor x y) s = .next t ∧
      (∀ j < 8, (t.reg x).getLsbD j = ((s.reg x).getLsbD j ^^ (s.reg y).getLsbD j)) ∧ OnlyRegs s t [x])

/-- R136, with R135: the sum modulo 256 in `V[X]`, the carry in `VF`, both from the registers before; with `X = F` the sum
stays and the carry is lost. -/
def Obligations.AddRegistersCarry : Prop :=
  ∀ (s : State) (x y : Nibble),
    decode (encXYN 0x8#4 x y 0x4#4) = .ok (.addRegisters x y) ∧
    ∃ t, exec (.addRegisters x y) s = .next t ∧
      (t.reg x).toNat = ((s.reg x).toNat + (s.reg y).toNat) % 256 ∧
      (x ≠ 0xF#4 → (t.reg 0xF#4).toNat = if (s.reg x).toNat + (s.reg y).toNat > 255 then 1 else 0) ∧
      OnlyRegs s t [x, 0xF#4]

/-- R137, R139, with R135: both differences modulo 256, `VF` 1 where there is no borrow. -/
def Obligations.SubtractsNoBorrow : Prop :=
  ∀ (s : State) (x y : Nibble),
    decode (encXYN 0x8#4 x y 0x5#4) = .ok (.subtractRegisters x y) ∧
    decode (encXYN 0x8#4 x y 0x7#4) = .ok (.reverseSubtract x y) ∧
    (∃ t, exec (.subtractRegisters x y) s = .next t ∧
      (t.reg x).toNat = ((s.reg x).toNat + 256 - (s.reg y).toNat) % 256 ∧
      (x ≠ 0xF#4 → (t.reg 0xF#4).toNat = if (s.reg x).toNat ≥ (s.reg y).toNat then 1 else 0) ∧
      OnlyRegs s t [x, 0xF#4]) ∧
    (∃ t, exec (.reverseSubtract x y) s = .next t ∧
      (t.reg x).toNat = ((s.reg y).toNat + 256 - (s.reg x).toNat) % 256 ∧
      (x ≠ 0xF#4 → (t.reg 0xF#4).toNat = if (s.reg y).toNat ≥ (s.reg x).toNat then 1 else 0) ∧
      OnlyRegs s t [x, 0xF#4])

/-- R138, R140, with R135: the shifts by one of `V[X]` itself, the dropped bit in `VF`; the `Y` nibble is ignored. -/
def Obligations.ShiftsInPlace : Prop :=
  ∀ (s : State) (x y : Nibble),
    decode (encXYN 0x8#4 x y 0x6#4) = .ok (.shiftRight x) ∧ decode (encXYN 0x8#4 x y 0xE#4) = .ok (.shiftLeft x) ∧
    (∃ t, exec (.shiftRight x) s = .next t ∧ (t.reg x).toNat = (s.reg x).toNat / 2 ∧
      (x ≠ 0xF#4 → (t.reg 0xF#4).toNat = (s.reg x).toNat % 2) ∧ OnlyRegs s t [x, 0xF#4]) ∧
    (∃ t, exec (.shiftLeft x) s = .next t ∧ (t.reg x).toNat = (s.reg x).toNat * 2 % 256 ∧
      (x ≠ 0xF#4 → (t.reg 0xF#4).toNat = (s.reg x).toNat / 128) ∧ OnlyRegs s t [x, 0xF#4])

/-- R141: whatever byte stands on the port `rnd`, `V[X]` becomes that byte AND `NN`; no flag, and the draw is kept nowhere.
The byte is free (log 1): the statement is for every value of it. -/
def Obligations.RandomAndMasksDraw : Prop :=
  ∀ (s : State) (x : Nibble) (nn : Byte),
    decode (encXNN 0xC#4 x nn) = .ok (.randomAnd x nn) ∧
    (∃ t, exec (.randomAnd x nn) s = .next t ∧
      (∀ j < 8, (t.reg x).getLsbD j = (s.inputs.rnd.getLsbD j && nn.getLsbD j)) ∧ OnlyRegs s t [x])

/-! ## Index register and memory -/

/-- R150, R151, R152: the three writes of `I`; AddToIndex wraps modulo 65536 and leaves `VF` alone. -/
def Obligations.IndexWrites : Prop :=
  ∀ (s : State) (x : Nibble) (nnn : Addr),
    decode (encAddr 0xA#4 nnn) = .ok (.loadIndex nnn) ∧ decode (encXNN 0xF#4 x 0x1E#8) = .ok (.addToIndex x) ∧
    decode (encXNN 0xF#4 x 0x29#8) = .ok (.loadSpriteLocation x) ∧
    (∃ t, exec (.loadIndex nnn) s = .next t ∧ t.i.toNat = nnn.toNat ∧ t = { s with i := t.i } ∧ SameMemory s t) ∧
    (∃ t, exec (.addToIndex x) s = .next t ∧ t.i.toNat = (s.i.toNat + (s.reg x).toNat) % 65536 ∧
      t = { s with i := t.i } ∧ SameMemory s t) ∧
    (∃ t, exec (.loadSpriteLocation x) s = .next t ∧ t.i.toNat = 5 * ((s.reg x).toNat % 16) ∧
      t = { s with i := t.i } ∧ SameMemory s t)

/-- R153, R156: the three digits at `I`, `I + 1`, `I + 2`; where one of these is outside memory the digits below it are
written and OutOfBounds reports the first address outside. Everything but the stored bytes is unchanged, `I` too. -/
def Obligations.StoreBCDDigits : Prop :=
  ∀ (s : State) (x : Nibble),
    decode (encXNN 0xF#4 x 0x33#8) = .ok (.storeBCD x) ∧
    ∃ t,
      (s.i.toNat + 2 < 4096 → exec (.storeBCD x) s = .next t) ∧
      (4096 ≤ s.i.toNat + 2 → exec (.storeBCD x) s = .next (takeFault (.outOfBounds (max s.i.toNat 4096)) t)) ∧
      OnlyMemory s t ∧
      ∀ a, (t.mem.read a).toNat =
        if a < 4096 ∧ a = s.i.toNat then (s.reg x).toNat / 100
        else if a < 4096 ∧ a = s.i.toNat + 1 then (s.reg x).toNat / 10 % 10
        else if a < 4096 ∧ a = s.i.toNat + 2 then (s.reg x).toNat % 10
        else (s.mem.read a).toNat

/-- R154, R156: `V[0]` to `V[X]` at `I` to `I + X`; where the block leaves memory the bytes inside it are written and
OutOfBounds reports the first address outside. -/
def Obligations.StoreRegistersBlock : Prop :=
  ∀ (s : State) (x : Nibble),
    decode (encXNN 0xF#4 x 0x55#8) = .ok (.storeRegisters x) ∧
    ∃ t,
      (s.i.toNat + x.toNat < 4096 → exec (.storeRegisters x) s = .next t) ∧
      (4096 ≤ s.i.toNat + x.toNat → exec (.storeRegisters x) s = .next (takeFault (.outOfBounds (max s.i.toNat 4096)) t)) ∧
      OnlyMemory s t ∧
      ∀ a, t.mem.read a =
        if s.i.toNat ≤ a ∧ a ≤ s.i.toNat + x.toNat ∧ a < 4096 then s.reg (BitVec.ofNat 4 (a - s.i.toNat))
        else s.mem.read a

/-- R155, R156: `V[0]` to `V[X]` from `I` to `I + X`, registers above `X` unchanged; where the block leaves memory the
registers whose byte is inside it are loaded and OutOfBounds reports the first address outside. -/
def Obligations.LoadRegistersBlock : Prop :=
  ∀ (s : State) (x : Nibble),
    decode (encXNN 0xF#4 x 0x65#8) = .ok (.loadRegisters x) ∧
    ∃ t,
      (s.i.toNat + x.toNat < 4096 → exec (.loadRegisters x) s = .next t) ∧
      (4096 ≤ s.i.toNat + x.toNat → exec (.loadRegisters x) s = .next (takeFault (.outOfBounds (max s.i.toNat 4096)) t)) ∧
      t = { s with v := t.v } ∧ SameMemory s t ∧
      ∀ r : Nibble, t.reg r =
        if r.toNat ≤ x.toNat ∧ s.i.toNat + r.toNat < 4096 then s.mem.read (s.i.toNat + r.toNat) else s.reg r

/-- R51, R53: a byte inside memory reads as it was last written, every other byte as before; outside memory both faults
name the address, and nothing changes. -/
def Obligations.ByteReadAfterWrite : Prop :=
  ∀ (s : State) (a : Nat) (b : Byte),
    (a < 4096 → ∃ t, s.writeByte a b = .done t ∧ OnlyMemory s t ∧ t.readByte a = .ok b ∧
      ∀ c, c ≠ a → t.readByte c = s.readByte c) ∧
    (4096 ≤ a → s.writeByte a b = .raised (.outOfBounds a) s ∧ s.readByte a = .error (.outOfBounds a))

/-- R62, R50: a word written by StoreRegisters over the next instruction is the word the next fetch reads. -/
def Obligations.StoredWordIsFetched : Prop :=
  ∀ (s : State) (x : Nibble), s.i.toNat + x.toNat < 4096 → s.i.toNat ≤ s.pc.toNat →
    s.pc.toNat + 1 ≤ s.i.toNat + x.toNat →
    ∃ t op, exec (.storeRegisters x) s = .next t ∧ t.fetchWord = .ok op ∧
      op.toNat = (s.reg (BitVec.ofNat 4 (s.pc.toNat - s.i.toNat))).toNat * 256
        + (s.reg (BitVec.ofNat 4 (s.pc.toNat + 1 - s.i.toNat))).toNat

/-! ## Display -/

/-- R171: every pixel 0 and the draw flag set, whatever they were; `VF` and everything else unchanged; the cycle that runs
it raises `frame_ready` and clears the draw flag. -/
def Obligations.ClearScreenZeroes : Prop :=
  decode 0x00E0#16 = .ok .clearScreen ∧
  ∀ s : State, ∃ t, exec .clearScreen s = .next t ∧ (∀ y < 32, ∀ x < 64, t.fb.pixel y x = false) ∧ t.draw = true ∧
    t = { s with fb := t.fb, draw := t.draw } ∧ SameMemory s t ∧
    (s.canCycle → s.fetches .clearScreen →
      ∃ u, step s = .next u ∧ Output.frameReady ∈ u.out ∧ u.draw = false ∧ ∀ y < 32, ∀ x < 64, u.fb.pixel y x = false)

/-- R172, R170: where every row of the sprite is in memory, each pixel is XORed with the sprite's bit there, coordinates
taken from the registers before and wrapped column by column and row by row; `VF` is 1 exactly when some lit pixel lay
under a 1 bit, else 0; the draw flag is set; nothing else changes. `N = 0` draws nothing. Where a row is outside memory, the
rows below it are drawn and stay, OutOfBounds reports the first address outside, and `VF` and the draw flag are not
written. -/
def Obligations.DrawSpriteXors : Prop :=
  ∀ (s : State) (x y n : Nibble),
    decode (encXYN 0xD#4 x y n) = .ok (.drawSprite x y n) ∧
    (s.i.toNat + n.toNat ≤ 4096 ∨ n.toNat = 0 →
      ∃ t, exec (.drawSprite x y n) s = .next t ∧
        (∀ py < 32, ∀ px < 64, t.fb.pixel py px =
          (s.fb.pixel py px ^^ spriteAt s (s.reg x).toNat (s.reg y).toNat n.toNat py px)) ∧
        t.reg 0xF#4 = (if spriteHits s (s.reg x).toNat (s.reg y).toNat n.toNat then 0x01#8 else 0x00#8) ∧
        (∀ r, r ≠ 0xF#4 → t.reg r = s.reg r) ∧ t.draw = true ∧
        t = { s with v := t.v, fb := t.fb, draw := t.draw } ∧ SameMemory s t) ∧
    (4096 < s.i.toNat + n.toNat → 0 < n.toNat →
      ∃ t, exec (.drawSprite x y n) s = .next (takeFault (.outOfBounds (max s.i.toNat 4096)) t) ∧
        (∀ py < 32, ∀ px < 64, t.fb.pixel py px =
          (s.fb.pixel py px ^^ spriteAt s (s.reg x).toNat (s.reg y).toNat (4096 - s.i.toNat) py px)) ∧
        t = { s with fb := t.fb } ∧ SameMemory s t)

/-- R173 (a): drawing the same sprite at the same location twice restores the framebuffer, and the second draw reports a
collision exactly when the first draw set a pixel, that is when some pixel under a 1 bit of the sprite was 0 before (log
11). The location is the same when neither coordinate register is `VF`; for the forms with `VF` as a coordinate, where the
first draw's flag moves the second, each draw is the one of `DrawSpriteXors`. -/
def Obligations.DrawSpriteTwiceRestores : Prop :=
  ∀ (s : State) (x y n : Nibble), s.i.toNat + n.toNat ≤ 4096 ∨ n.toNat = 0 → x ≠ 0xF#4 → y ≠ 0xF#4 →
    ∃ t u, exec (.drawSprite x y n) s = .next t ∧ exec (.drawSprite x y n) t = .next u ∧
      u.fb = s.fb ∧
      ((∃ py < 32, ∃ px < 64, spriteAt s (s.reg x).toNat (s.reg y).toNat n.toNat py px = true ∧
          s.fb.pixel py px = false) → u.reg 0xF#4 = 0x01#8) ∧
      ((∀ py < 32, ∀ px < 64, spriteAt s (s.reg x).toNat (s.reg y).toNat n.toNat py px = true →
          s.fb.pixel py px = true) → u.reg 0xF#4 = 0x00#8)

/-- R98 with D25: the render port presents pixel (x, y) at index `64*y + x`, 2048 pixels in all. -/
def Obligations.RenderPortRowMajor : Prop :=
  ∀ fb : FrameBuffer, fb.render.length = 2048 ∧
    ∀ y < 32, ∀ x < 64, fb.render[64 * y + x]? = some (fb.pixel y x)

/-! ## Keys and timers -/

/-- R180, R181, with R213: the whole register is the key index and above 15 it faults, before `Next()` is tried; else the
skip is taken exactly when the key is held, or is not held. -/
def Obligations.KeySkips : Prop :=
  ∀ (s : State) (x : Nibble),
    decode (encXNN 0xE#4 x 0x9E#8) = .ok (.skipIfKeyPressed x) ∧
    decode (encXNN 0xE#4 x 0xA1#8) = .ok (.skipIfKeyNotPressed x) ∧
    (15 < (s.reg x).toNat →
      exec (.skipIfKeyPressed x) s = .next (takeFault (.keyIndexOutOfRange (s.reg x)) s) ∧
      exec (.skipIfKeyNotPressed x) s = .next (takeFault (.keyIndexOutOfRange (s.reg x)) s)) ∧
    ((s.reg x).toNat ≤ 15 →
      (s.key (s.reg x).toNat = false → exec (.skipIfKeyPressed x) s = .next s) ∧
      (s.key (s.reg x).toNat = true → exec (.skipIfKeyNotPressed x) s = .next s) ∧
      (s.pc.toNat + 2 < 4096 →
        (s.key (s.reg x).toNat = true →
          ∃ t, exec (.skipIfKeyPressed x) s = .next t ∧ t.pc.toNat = s.pc.toNat + 2 ∧ OnlyPc s t) ∧
        (s.key (s.reg x).toNat = false →
          ∃ t, exec (.skipIfKeyNotPressed x) s = .next t ∧ t.pc.toNat = s.pc.toNat + 2 ∧ OnlyPc s t)) ∧
      (4096 ≤ s.pc.toNat + 2 →
        (s.key (s.reg x).toNat = true →
          exec (.skipIfKeyPressed x) s = .next (takeFault (.programCounterOverflow s.pc) s)) ∧
        (s.key (s.reg x).toNat = false →
          exec (.skipIfKeyNotPressed x) s = .next (takeFault (.programCounterOverflow s.pc) s))))

/-- R182: `V[X]` becomes the least held key; with none held `pc` steps back by 2, onto the instruction itself. Over a whole
cycle with no key held, `pc` stays, the core runs on, `updated` is raised, the timers tick, and the same instruction is
fetched next. -/
def Obligations.WaitForKeyTakesLeastOrRetries : Prop :=
  ∀ (s : State) (x : Nibble),
    decode (encXNN 0xF#4 x 0x0A#8) = .ok (.waitForKey x) ∧
    (∀ j < 16, s.key j = true → (∀ l < j, s.key l = false) →
      ∃ t, exec (.waitForKey x) s = .next t ∧ (t.reg x).toNat = j ∧ OnlyRegs s t [x]) ∧
    ((∀ j < 16, s.key j = false) →
      (2 ≤ s.pc.toNat → ∃ t, exec (.waitForKey x) s = .next t ∧ t.pc.toNat = s.pc.toNat - 2 ∧ OnlyPc s t) ∧
      (s.pc.toNat < 2 → exec (.waitForKey x) s = .next (takeFault (.programCounterUnderflow s.pc) s))) ∧
    (s.canCycle → s.fetches (.waitForKey x) → s.inputs.keyIn = 0x0000#16 →
      ∃ u, step s = .next u ∧ u.fetches (.waitForKey x) ∧ u.pc = s.pc ∧ u.running = true ∧ u.fault = none ∧
        (∀ r, u.reg r = s.reg r) ∧ u.dt.toNat = s.dt.toNat - 1 ∧ u.st.toNat = s.st.toNat - 1 ∧
        Output.updated ∈ u.out ∧ SameMemory s u)

/-- R183, R184, R185: the three copies between a timer and a register, and what the tick of the same cycle leaves: a read
gives the value before the tick, a written timer has lost 1 at the end of its own cycle, and `beep` is raised in it exactly
when the sound timer is still above 0. -/
def Obligations.TimerTransfers : Prop :=
  ∀ (s : State) (x : Nibble),
    decode (encXNN 0xF#4 x 0x07#8) = .ok (.loadDelayTimer x) ∧ decode (encXNN 0xF#4 x 0x15#8) = .ok (.setDelayTimer x) ∧
    decode (encXNN 0xF#4 x 0x18#8) = .ok (.setSoundTimer x) ∧
    (∃ t, exec (.loadDelayTimer x) s = .next t ∧ t.reg x = s.dt ∧ OnlyRegs s t [x]) ∧
    (∃ t, exec (.setDelayTimer x) s = .next t ∧ t.dt = s.reg x ∧ t = { s with dt := t.dt } ∧ SameMemory s t) ∧
    (∃ t, exec (.setSoundTimer x) s = .next t ∧ t.st = s.reg x ∧ t = { s with st := t.st } ∧ SameMemory s t) ∧
    (s.canCycle → s.fetches (.loadDelayTimer x) →
      ∃ u, step s = .next u ∧ u.reg x = s.dt ∧ u.dt.toNat = s.dt.toNat - 1) ∧
    (s.canCycle → s.fetches (.setDelayTimer x) → ∃ u, step s = .next u ∧ u.dt.toNat = (s.reg x).toNat - 1) ∧
    (s.canCycle → s.fetches (.setSoundTimer x) →
      ∃ u, step s = .next u ∧ u.st.toNat = (s.reg x).toNat - 1 ∧ (Output.beep ∈ u.out ↔ 1 < (s.reg x).toNat))

/-! ## Over all instructions -/

/-- R21 to R23, R25, R26, R29 to R36, R53, R156, R186: each piece of state is written by the listed instructions only, `pc` by
the transfers, the skips and WaitForKey only, `running`, the fault latch and the outputs by those that can raise a fault
only, and the key flags, the flags of a load, the parameters and the inputs by none. -/
def Obligations.OnlyListedInstructionsWrite : Prop :=
  ∀ (i : Instr) (s t : State), exec i s = .next t →
    (∀ r, mayWriteReg i r = false → t.reg r = s.reg r) ∧
    (writesPc i = false → t.pc = s.pc) ∧
    (writesIndex i = false → t.i = s.i) ∧
    (storesMemory i = false → t.mem = s.mem ∧ SameMemory s t) ∧
    (drawsScreen i = false → t.fb = s.fb ∧ t.draw = s.draw) ∧
    (usesStack i = false → t.stack = s.stack ∧ t.sp = s.sp) ∧
    ((∀ x, i ≠ .setDelayTimer x) → t.dt = s.dt) ∧
    ((∀ x, i ≠ .setSoundTimer x) → t.st = s.st) ∧
    ((∀ f, mayRaise i f = false) → t.running = s.running ∧ t.fault = s.fault ∧ t.out = s.out) ∧
    t.k = s.k ∧ t.started = s.started ∧ t.initialized = s.initialized ∧ t.callmc = s.callmc ∧ t.font = s.font ∧
    t.script = s.script ∧ t.ticks = s.ticks ∧ t.reply = s.reply

/-- R200, R213: an instruction either changes none of the latch, `running` and the outputs, or takes exactly one fault, one
that the table lists for it. The order of `fault_out` and `stopped` is the model's reading (log 14). -/
def Obligations.InstructionsRaiseOnlyTheirFaults : Prop :=
  ∀ (i : Instr) (s t : State), exec i s = .next t →
    (t.fault = s.fault ∧ t.running = s.running ∧ t.out = s.out) ∨
    (∃ f, mayRaise i f = true ∧ t.fault = some f ∧ t.running = false ∧ t.out = s.out ++ [.faultOut f, .stopped])

/-- R208, R24: no step of any state latches ProgramCounterUnderflow. That no run raises it is an inference the spec marks as
its own (R208's `derived` mark). -/
def Obligations.UnderflowNeverRaised : Prop :=
  ∀ s t : State, step s = .next t → (∀ p, s.fault ≠ some (.programCounterUnderflow p)) →
    ∀ p, t.fault ≠ some (.programCounterUnderflow p)

/-- R95, R141: no instruction but RandomAnd sees the ports: with any other script and at any other tick it does the same. -/
def Obligations.OnlyRandomAndReadsTheDraw : Prop :=
  ∀ (i : Instr) (s : State) (ps : List PortInput) (n : Nat), (∀ x nn, i ≠ .randomAnd x nn) →
    ∃ t, exec i s = .next t ∧ exec i { s with script := ps, ticks := n } = .next { t with script := ps, ticks := n }

/-! ## Host commands -/

/-- R41, with R38, R55, R201, R241: on a stopped core `Initialize(rom)` fails on a ROM above 3584 bytes with nothing changed,
and otherwise leaves every piece of state at its reset value and memory as the map says. The font loaded is the machine's
parameter `FONT`, a field of the state (log 3): the statement is for every 80 bytes of it, not for the default's. -/
def Obligations.InitializeResets : Prop :=
  ∀ (s : State) (rom : List Byte), s.inputs.command = some (.initRom rom) → s.running = false →
    (3584 < rom.length → step s = .next (s.answered (.failed (.invalidRom rom.length)))) ∧
    (rom.length ≤ 3584 → ∃ t, step s = .next t ∧
      (∀ r, t.reg r = 0x00#8) ∧ t.i = 0x0000#16 ∧ t.pc = 0x0000#16 ∧ t.sp.val = 0 ∧
      (∀ j : Fin 16, t.stack[j.val] = 0x0000#16) ∧ t.dt = 0x00#8 ∧ t.st = 0x00#8 ∧
      (∀ y x, t.fb.pixel y x = false) ∧ (∀ j < 16, t.key j = false) ∧ t.draw = false ∧ t.running = false ∧
      t.started = false ∧ t.fault = none ∧
      (∀ a < 4096, t.mem.read a =
        if 0x200 ≤ a ∧ a < 0x200 + rom.length then rom.getD (a - 0x200) 0x00#8
        else if a < 80 then s.font.toList.getD a 0x00#8 else 0x00#8))

/-- R244, R210, R35: `Start` fails on a running core with nothing changed; a `Start` that succeeds seeds `pc` with 0x0200 only
on the first one after an `Initialize`, and changes nothing but `pc` and the run flags. Whether an `Initialize` succeeded is
the model's own field (log 5). -/
def Obligations.StartSeedsOnce : Prop :=
  ∀ s : State, s.inputs.command = some .start →
    (s.running = true → step s = .next (s.answered (.failed .alreadyRunning))) ∧
    (s.running = false → s.fault = none → s.initialized = true →
      step s = .next { s.answered .done with
        pc := if s.started then s.pc else 0x0200#16
        started := true, running := true, out := [.started] })

/-- R241, R244, R215, R240, R247 to R250 and D34: the commands that are refused without a fault's name change nothing; the form of
the answer is the model's (log 10), and that `setKeyState` is refused while running is its choice (log 9). -/
def Obligations.RefusedCommandsChangeNothing : Prop :=
  ∀ s : State,
    (∀ rom, s.inputs.command = some (.initRom rom) → s.running = true → step s = .next (s.answered .refused)) ∧
    (s.inputs.command = some .start → s.running = false → s.fault ≠ none ∨ s.initialized = false →
      step s = .next (s.answered .refused)) ∧
    (∀ bytes offset, s.inputs.command = some (.load bytes offset) → s.running = true →
      step s = .next (s.answered .refused)) ∧
    (∀ index pressed, s.inputs.command = some (.setKeyState index pressed) → s.running = true ∨ 15 < index →
      step s = .next (s.answered .refused))

/-- R246, with R211: `Stop` clears `running` and raises `stopped`, and changes no other state. -/
def Obligations.StopEndsTheRun : Prop :=
  ∀ s : State, s.inputs.command = some .stop →
    (s.running = true → step s = .next { s.answered .done with running := false, out := [.stopped] }) ∧
    (s.running = false → step s = .next (s.answered (.failed .alreadyStopped)))

/-- R248: on a stopped core a copy that would leave memory changes nothing (the reported address is the model's choice, log 8);
else the bytes stand at `offset` and nothing else changes. -/
def Obligations.LoadCopiesOrFails : Prop :=
  ∀ (s : State) (bytes : List Byte) (offset : Nat), s.inputs.command = some (.load bytes offset) → s.running = false →
    (4096 < offset + bytes.length →
      step s = .next (s.answered (.failed (.outOfBounds (max offset 4096))))) ∧
    (offset + bytes.length ≤ 4096 →
      ∃ t, step s = .next t ∧ t = { s.answered .done with mem := t.mem } ∧
        ∀ a, t.mem.read a =
          if offset ≤ a ∧ a < offset + bytes.length then bytes.getD (a - offset) 0x00#8 else s.mem.read a)

/-- R249: on a stopped core `setKeyState` of a key 0 to 15 writes that flag and sets the draw flag; nothing else changes. -/
def Obligations.SetKeyStateMarksDraw : Prop :=
  ∀ (s : State) (index : Nat) (pressed : Bool), s.inputs.command = some (.setKeyState index pressed) →
    s.running = false → index ≤ 15 →
      ∃ t, step s = .next t ∧ t = { s.answered .done with k := t.k, draw := true } ∧
        ∀ j < 16, t.key j = if j = index then pressed else s.key j
end

