-- ==== Sys2Proof/Laws/Decode.lean ====
section
/-! SUPPORT. The number of an assembled word and the fields `opSeg`, `opX`, ... read from it, for each format of the
encoder and for the word of two bytes. -/

namespace Sys2Proof

/-! ## An assembled word as a number -/

theorem toNat_append_eq {n m : Nat} (a : BitVec n) (b : BitVec m) : (a ++ b).toNat = a.toNat * 2 ^ m + b.toNat := by
  rw [BitVec.toNat_append, ← Nat.shiftLeft_add_eq_or_of_lt b.isLt, Nat.shiftLeft_eq]

theorem toNat_encAddr (g : Nibble) (a : Addr) : (encAddr g a).toNat = g.toNat * 4096 + a.toNat :=
  toNat_append_eq g a

theorem toNat_encXNN (g x : Nibble) (nn : Byte) : (encXNN g x nn).toNat = g.toNat * 4096 + x.toNat * 256 + nn.toNat := by
  have h : (encXNN g x nn).toNat = (g ++ x).toNat * 256 + nn.toNat := toNat_append_eq (g ++ x) nn
  rw [h, toNat_append_eq]; omega

theorem toNat_encXYN (g x y n : Nibble) :
    (encXYN g x y n).toNat = g.toNat * 4096 + x.toNat * 256 + y.toNat * 16 + n.toNat := by
  have h : (encXYN g x y n).toNat = (g ++ x ++ y).toNat * 16 + n.toNat := toNat_append_eq (g ++ x ++ y) n
  rw [h, toNat_append_eq, toNat_append_eq]; omega

theorem toNat_wordOfBytes (hi lo : Byte) : (wordOfBytes hi lo).toNat = hi.toNat * 256 + lo.toNat :=
  toNat_append_eq hi lo

/-! ## The fields of a word as numbers -/

theorem toNat_opSeg (op : Word) : (opSeg op).toNat = op.toNat / 4096 := by simp [opSeg, Nat.shiftRight_eq_div_pow]; omega
theorem toNat_opX (op : Word) : (opX op).toNat = op.toNat / 256 % 16 := by simp [opX, Nat.shiftRight_eq_div_pow]
theorem toNat_opY (op : Word) : (opY op).toNat = op.toNat / 16 % 16 := by simp [opY, Nat.shiftRight_eq_div_pow]
theorem toNat_opN (op : Word) : (opN op).toNat = op.toNat % 16 := by simp [opN]
theorem toNat_opNN (op : Word) : (opNN op).toNat = op.toNat % 256 := by simp [opNN]
theorem toNat_opNNN (op : Word) : (opNNN op).toNat = op.toNat % 4096 := by simp [opNNN]
theorem toNat_highByte (op : Word) : (highByte op).toNat = op.toNat / 256 := by
  simp [highByte, Nat.shiftRight_eq_div_pow]; omega
theorem toNat_lowByte (op : Word) : (lowByte op).toNat = op.toNat % 256 := by simp [lowByte]

/-- The two bytes of a word make the word again. -/
@[simp] theorem wordOfBytes_high_low (op : Word) : wordOfBytes (highByte op) (lowByte op) = op := by
  apply BitVec.eq_of_toNat_eq; rw [toNat_wordOfBytes, toNat_highByte, toNat_lowByte]; omega

/-! ## The fields of an assembled word -/

@[simp] theorem opSeg_encAddr (g : Nibble) (a : Addr) : opSeg (encAddr g a) = g := by
  apply BitVec.eq_of_toNat_eq; rw [toNat_opSeg, toNat_encAddr]; omega
@[simp] theorem opNNN_encAddr (g : Nibble) (a : Addr) : opNNN (encAddr g a) = a := by
  apply BitVec.eq_of_toNat_eq; rw [toNat_opNNN, toNat_encAddr]; omega

@[simp] theorem opSeg_encXNN (g x : Nibble) (nn : Byte) : opSeg (encXNN g x nn) = g := by
  apply BitVec.eq_of_toNat_eq; rw [toNat_opSeg, toNat_encXNN]; omega
@[simp] theorem opX_encXNN (g x : Nibble) (nn : Byte) : opX (encXNN g x nn) = x := by
  apply BitVec.eq_of_toNat_eq; rw [toNat_opX, toNat_encXNN]; omega
@[simp] theorem opNN_encXNN (g x : Nibble) (nn : Byte) : opNN (encXNN g x nn) = nn := by
  apply BitVec.eq_of_toNat_eq; rw [toNat_opNN, toNat_encXNN]; omega

@[simp] theorem opSeg_encXYN (g x y n : Nibble) : opSeg (encXYN g x y n) = g := by
  apply BitVec.eq_of_toNat_eq; rw [toNat_opSeg, toNat_encXYN]; omega
@[simp] theorem opX_encXYN (g x y n : Nibble) : opX (encXYN g x y n) = x := by
  apply BitVec.eq_of_toNat_eq; rw [toNat_opX, toNat_encXYN]; omega
@[simp] theorem opY_encXYN (g x y n : Nibble) : opY (encXYN g x y n) = y := by
  apply BitVec.eq_of_toNat_eq; rw [toNat_opY, toNat_encXYN]; omega
@[simp] theorem opN_encXYN (g x y n : Nibble) : opN (encXYN g x y n) = n := by
  apply BitVec.eq_of_toNat_eq; rw [toNat_opN, toNat_encXYN]; omega

end Sys2Proof
end

