-- ==== Sys2Proof/Laws/Memory.lean ====
section
/-! SUPPORT. The laws of memory: a read after a write, and that every memory operation keeps the canonical form. -/

namespace Sys2Proof.Machine

/-! ## Reads after writes -/

theorem read_erase (m : Memory) (a c : Nat) :
    (m.erase a).read c = if c = a then initialByte a else m.read c := by
  induction m with
  | nil => by_cases h : c = a <;> simp [Memory.erase, Memory.read, h]
  | cons p m ih =>
    simp only [Memory.erase] at ih ⊢
    by_cases hp : p.1 = a
    · rw [List.filter_cons_of_neg (by simp [hp]), ih]
      by_cases hc : c = a
      · simp [hc]
      · have : p.1 ≠ c := fun e => hc (e ▸ hp)
        simp [Memory.read, hc, this]
    · rw [List.filter_cons_of_pos (by simp [hp])]
      by_cases hpc : p.1 = c
      · simp [Memory.read, hpc, show c ≠ a from fun e => hp (hpc.trans e)]
      · simp [Memory.read, hpc, ih]

theorem read_insert (m : Memory) (a : Nat) (b : Byte) (c : Nat) (h : ∀ p ∈ m, p.1 ≠ a) :
    (m.insert a b).read c = if c = a then b else m.read c := by
  induction m with
  | nil => simp [Memory.insert, Memory.read, eq_comm]
  | cons p m ih =>
    have ih := ih (fun q hq => h q (List.mem_cons_of_mem _ hq))
    simp only [Memory.insert]
    split
    · simp only [Memory.read]
      by_cases hc : c = a
      · simp [hc]
      · simp [hc, Ne.symm hc]
    · simp only [Memory.read, ih]
      by_cases hc : c = a
      · simp [hc, h p (List.mem_cons_self ..)]
      · simp [hc]

theorem erase_ne (m : Memory) (a : Nat) : ∀ p ∈ m.erase a, p.1 ≠ a := by
  simp [Memory.erase]

/-- A byte of memory after a write to one address, in every memory. -/
theorem read_write (m : Memory) (a : Nat) (b : Byte) (c : Nat) :
    (m.write a b).read c = if c = a then b else m.read c := by
  unfold Memory.write
  split
  · rename_i h; rw [read_erase, h]
  · rw [read_insert _ _ _ _ (erase_ne m a), read_erase]; split <;> simp_all

/-- A byte of memory after a block of bytes was written in ascending order. -/
theorem read_writeBytes (bs : List Byte) : ∀ (m : Memory) (a c : Nat),
    (m.writeBytes a bs).read c = if a ≤ c ∧ c < a + bs.length then bs.getD (c - a) 0 else m.read c := by
  induction bs with
  | nil => intro m a c; simp [Memory.writeBytes]
  | cons b bs ih =>
    intro m a c
    rw [Memory.writeBytes, ih, read_write]
    by_cases h1 : a + 1 ≤ c ∧ c < a + 1 + bs.length
    · rw [if_pos h1, if_pos (by simp only [List.length_cons]; omega)]
      obtain ⟨d, rfl⟩ : ∃ d, c = a + 1 + d := ⟨c - (a + 1), by omega⟩
      rw [show a + 1 + d - (a + 1) = d by omega, show a + 1 + d - a = d + 1 by omega]
      simp
    · rw [if_neg h1]
      by_cases h2 : c = a
      · subst h2; simp
      · rw [if_neg h2, if_neg (by simp only [List.length_cons]; omega)]

/-! ## The canonical form is kept -/

theorem wfFrom_mono {m : Memory} {lo lo' : Nat} (h : m.wfFrom lo = true) (hl : lo' ≤ lo) : m.wfFrom lo' = true := by
  cases m with
  | nil => rfl
  | cons p m => simp only [Memory.wfFrom, Bool.and_eq_true, decide_eq_true_eq] at h ⊢; exact ⟨⟨⟨by omega, h.1.1.2⟩, h.1.2⟩, h.2⟩

theorem wfFrom_erase {m : Memory} (a : Nat) : ∀ {lo : Nat}, m.wfFrom lo = true → (m.erase a).wfFrom lo = true := by
  induction m with
  | nil => intro lo _; rfl
  | cons p m ih =>
    intro lo h
    simp only [Memory.wfFrom, Bool.and_eq_true, decide_eq_true_eq] at h
    simp only [Memory.erase] at ih ⊢
    by_cases hp : p.1 = a
    · rw [List.filter_cons_of_neg (by simp [hp])]
      exact wfFrom_mono (ih h.2) (by omega)
    · rw [List.filter_cons_of_pos (by simp [hp])]
      simp only [Memory.wfFrom, Bool.and_eq_true, decide_eq_true_eq]
      exact ⟨h.1, ih h.2⟩

theorem wfFrom_insert {m : Memory} {a : Nat} {b : Byte} (ha : a < 4096) (hb : b ≠ initialByte a) :
    ∀ {lo : Nat}, m.wfFrom lo = true → (∀ p ∈ m, p.1 ≠ a) → lo ≤ a → (m.insert a b).wfFrom lo = true := by
  induction m with
  | nil => intro lo _ _ hl; simp [Memory.insert, Memory.wfFrom, ha, hb, hl]
  | cons p m ih =>
    intro lo h hne hl
    have hpa := hne p (List.mem_cons_self ..)
    simp only [Memory.insert]
    split
    · rename_i hlt
      simp only [Memory.wfFrom, Bool.and_eq_true, decide_eq_true_eq] at h ⊢
      simp only [bne_iff_ne, ne_eq] at h ⊢
      exact ⟨⟨⟨hl, ha⟩, hb⟩, ⟨⟨by omega, h.1.1.2⟩, h.1.2⟩, h.2⟩
    · simp only [Memory.wfFrom, Bool.and_eq_true, decide_eq_true_eq] at h ⊢
      exact ⟨h.1, ih h.2 (fun q hq => hne q (List.mem_cons_of_mem _ hq)) (by omega)⟩

/-- A write inside the address space keeps the canonical form. -/
theorem wf_write {m : Memory} {a : Nat} {b : Byte} (h : m.wf = true) (ha : a < 4096) : (m.write a b).wf = true := by
  unfold Memory.write Memory.wf
  split
  · exact wfFrom_erase a h
  · rename_i hb; exact wfFrom_insert ha hb (wfFrom_erase a h) (erase_ne m a) (Nat.zero_le _)

/-- So does a block of writes inside it. -/
theorem wf_writeBytes (bs : List Byte) : ∀ {m : Memory} {a : Nat}, m.wf = true → a + bs.length ≤ 4096 →
    (m.writeBytes a bs).wf = true := by
  induction bs with
  | nil => intro m a h _; exact h
  | cons b bs ih =>
    intro m a h hl
    simp only [List.length_cons] at hl
    exact ih (wf_write h (by omega)) (by omega)

/-! ## The form is canonical: equal reads are equal memories -/

theorem read_below {m : Memory} : ∀ {lo a : Nat}, m.wfFrom lo = true → a < lo → m.read a = initialByte a := by
  induction m with
  | nil => intro lo a _ _; rfl
  | cons p m ih =>
    intro lo a h ha
    simp only [Memory.wfFrom, Bool.and_eq_true, decide_eq_true_eq] at h
    rw [Memory.read, if_neg (by omega), ih h.2 (by omega)]

theorem wfFrom_ext {m : Memory} : ∀ {m' : Memory} {lo : Nat}, m.wfFrom lo = true → m'.wfFrom lo = true →
    (∀ a, lo ≤ a → m.read a = m'.read a) → m = m' := by
  induction m with
  | nil =>
    intro m' lo _ h' he
    cases m' with
    | nil => rfl
    | cons q m' =>
      simp only [Memory.wfFrom, Bool.and_eq_true, decide_eq_true_eq, bne_iff_ne] at h'
      have := he q.1 h'.1.1.1
      simp only [Memory.read, if_true] at this
      exact absurd this.symm h'.1.2
  | cons p m ih =>
    intro m' lo h h' he
    have hp := h
    simp only [Memory.wfFrom, Bool.and_eq_true, decide_eq_true_eq, bne_iff_ne] at h
    cases m' with
    | nil =>
      have := he p.1 h.1.1.1
      simp only [Memory.read, if_true] at this
      exact absurd this h.1.2
    | cons q m' =>
      have hq := h'
      simp only [Memory.wfFrom, Bool.and_eq_true, decide_eq_true_eq, bne_iff_ne] at h'
      have hp1 := he p.1 h.1.1.1
      have hq1 := he q.1 h'.1.1.1
      have heq : p.1 = q.1 := by
        rcases Nat.lt_trichotomy p.1 q.1 with hlt | heq | hgt
        · rw [Memory.read, if_pos rfl, Memory.read, if_neg (by omega), read_below h'.2 (by omega)] at hp1
          exact absurd hp1 h.1.2
        · exact heq
        · rw [Memory.read, if_neg (by omega), read_below h.2 (by omega), Memory.read, if_pos rfl] at hq1
          exact absurd hq1.symm h'.1.2
      have hb : p.2 = q.2 := by
        rw [Memory.read, if_pos rfl, Memory.read, if_pos heq.symm] at hp1; exact hp1
      have htl : m = m' := ih h.2 (heq ▸ h'.2) (fun a ha => by
        have := he a (by omega)
        rwa [Memory.read, if_neg (by omega), Memory.read, if_neg (by omega)] at this)
      rw [htl, Prod.ext heq hb]

/-- Two memories in canonical form that read alike everywhere are the same data. -/
theorem wf_ext {m m' : Memory} (h : m.wf = true) (h' : m'.wf = true) (he : ∀ a, m.read a = m'.read a) : m = m' :=
  wfFrom_ext h h' (fun a _ => he a)

end Sys2Proof.Machine
end

