-- ==== Sys2Proof/Laws/State.lean ====
section
/-! SUPPORT. One lemma per field per update of the state: the value of each field an update writes, and that every other
field is unchanged. -/

namespace Sys2Proof.Machine

variable (s : State)

/-! ### `setReg` -/

@[simp] theorem setReg_v (x : Nibble) (b : Byte) : (s.setReg x b).v = s.v.set x.toNat b := rfl
@[simp] theorem setReg_pc (x : Nibble) (b : Byte) : (s.setReg x b).pc = s.pc := rfl
@[simp] theorem setReg_i (x : Nibble) (b : Byte) : (s.setReg x b).i = s.i := rfl
@[simp] theorem setReg_stack (x : Nibble) (b : Byte) : (s.setReg x b).stack = s.stack := rfl
@[simp] theorem setReg_sp (x : Nibble) (b : Byte) : (s.setReg x b).sp = s.sp := rfl
@[simp] theorem setReg_dt (x : Nibble) (b : Byte) : (s.setReg x b).dt = s.dt := rfl
@[simp] theorem setReg_st (x : Nibble) (b : Byte) : (s.setReg x b).st = s.st := rfl
@[simp] theorem setReg_fb (x : Nibble) (b : Byte) : (s.setReg x b).fb = s.fb := rfl
@[simp] theorem setReg_k (x : Nibble) (b : Byte) : (s.setReg x b).k = s.k := rfl
@[simp] theorem setReg_draw (x : Nibble) (b : Byte) : (s.setReg x b).draw = s.draw := rfl
@[simp] theorem setReg_running (x : Nibble) (b : Byte) : (s.setReg x b).running = s.running := rfl
@[simp] theorem setReg_started (x : Nibble) (b : Byte) : (s.setReg x b).started = s.started := rfl
@[simp] theorem setReg_fault (x : Nibble) (b : Byte) : (s.setReg x b).fault = s.fault := rfl
@[simp] theorem setReg_mem (x : Nibble) (b : Byte) : (s.setReg x b).mem = s.mem := rfl
@[simp] theorem setReg_initialized (x : Nibble) (b : Byte) : (s.setReg x b).initialized = s.initialized := rfl
@[simp] theorem setReg_callmc (x : Nibble) (b : Byte) : (s.setReg x b).callmc = s.callmc := rfl
@[simp] theorem setReg_font (x : Nibble) (b : Byte) : (s.setReg x b).font = s.font := rfl
@[simp] theorem setReg_script (x : Nibble) (b : Byte) : (s.setReg x b).script = s.script := rfl
@[simp] theorem setReg_ticks (x : Nibble) (b : Byte) : (s.setReg x b).ticks = s.ticks := rfl
@[simp] theorem setReg_out (x : Nibble) (b : Byte) : (s.setReg x b).out = s.out := rfl
@[simp] theorem setReg_reply (x : Nibble) (b : Byte) : (s.setReg x b).reply = s.reply := rfl
@[simp] theorem setReg_inputs (x : Nibble) (b : Byte) : (s.setReg x b).inputs = s.inputs := rfl

/-! ### `setPc` -/

@[simp] theorem setPc_v (w : Word) : (s.setPc w).v = s.v := rfl
@[simp] theorem setPc_pc (w : Word) : (s.setPc w).pc = w := rfl
@[simp] theorem setPc_i (w : Word) : (s.setPc w).i = s.i := rfl
@[simp] theorem setPc_stack (w : Word) : (s.setPc w).stack = s.stack := rfl
@[simp] theorem setPc_sp (w : Word) : (s.setPc w).sp = s.sp := rfl
@[simp] theorem setPc_dt (w : Word) : (s.setPc w).dt = s.dt := rfl
@[simp] theorem setPc_st (w : Word) : (s.setPc w).st = s.st := rfl
@[simp] theorem setPc_fb (w : Word) : (s.setPc w).fb = s.fb := rfl
@[simp] theorem setPc_k (w : Word) : (s.setPc w).k = s.k := rfl
@[simp] theorem setPc_draw (w : Word) : (s.setPc w).draw = s.draw := rfl
@[simp] theorem setPc_running (w : Word) : (s.setPc w).running = s.running := rfl
@[simp] theorem setPc_started (w : Word) : (s.setPc w).started = s.started := rfl
@[simp] theorem setPc_fault (w : Word) : (s.setPc w).fault = s.fault := rfl
@[simp] theorem setPc_mem (w : Word) : (s.setPc w).mem = s.mem := rfl
@[simp] theorem setPc_initialized (w : Word) : (s.setPc w).initialized = s.initialized := rfl
@[simp] theorem setPc_callmc (w : Word) : (s.setPc w).callmc = s.callmc := rfl
@[simp] theorem setPc_font (w : Word) : (s.setPc w).font = s.font := rfl
@[simp] theorem setPc_script (w : Word) : (s.setPc w).script = s.script := rfl
@[simp] theorem setPc_ticks (w : Word) : (s.setPc w).ticks = s.ticks := rfl
@[simp] theorem setPc_out (w : Word) : (s.setPc w).out = s.out := rfl
@[simp] theorem setPc_reply (w : Word) : (s.setPc w).reply = s.reply := rfl
@[simp] theorem setPc_reg (w : Word) (x0 : Nibble) : (s.setPc w).reg x0 = s.reg x0 := rfl
@[simp] theorem setPc_inputs (w : Word) : (s.setPc w).inputs = s.inputs := rfl

/-! ### `setIndex` -/

@[simp] theorem setIndex_v (w : Word) : (s.setIndex w).v = s.v := rfl
@[simp] theorem setIndex_pc (w : Word) : (s.setIndex w).pc = s.pc := rfl
@[simp] theorem setIndex_i (w : Word) : (s.setIndex w).i = w := rfl
@[simp] theorem setIndex_stack (w : Word) : (s.setIndex w).stack = s.stack := rfl
@[simp] theorem setIndex_sp (w : Word) : (s.setIndex w).sp = s.sp := rfl
@[simp] theorem setIndex_dt (w : Word) : (s.setIndex w).dt = s.dt := rfl
@[simp] theorem setIndex_st (w : Word) : (s.setIndex w).st = s.st := rfl
@[simp] theorem setIndex_fb (w : Word) : (s.setIndex w).fb = s.fb := rfl
@[simp] theorem setIndex_k (w : Word) : (s.setIndex w).k = s.k := rfl
@[simp] theorem setIndex_draw (w : Word) : (s.setIndex w).draw = s.draw := rfl
@[simp] theorem setIndex_running (w : Word) : (s.setIndex w).running = s.running := rfl
@[simp] theorem setIndex_started (w : Word) : (s.setIndex w).started = s.started := rfl
@[simp] theorem setIndex_fault (w : Word) : (s.setIndex w).fault = s.fault := rfl
@[simp] theorem setIndex_mem (w : Word) : (s.setIndex w).mem = s.mem := rfl
@[simp] theorem setIndex_initialized (w : Word) : (s.setIndex w).initialized = s.initialized := rfl
@[simp] theorem setIndex_callmc (w : Word) : (s.setIndex w).callmc = s.callmc := rfl
@[simp] theorem setIndex_font (w : Word) : (s.setIndex w).font = s.font := rfl
@[simp] theorem setIndex_script (w : Word) : (s.setIndex w).script = s.script := rfl
@[simp] theorem setIndex_ticks (w : Word) : (s.setIndex w).ticks = s.ticks := rfl
@[simp] theorem setIndex_out (w : Word) : (s.setIndex w).out = s.out := rfl
@[simp] theorem setIndex_reply (w : Word) : (s.setIndex w).reply = s.reply := rfl
@[simp] theorem setIndex_reg (w : Word) (x0 : Nibble) : (s.setIndex w).reg x0 = s.reg x0 := rfl
@[simp] theorem setIndex_inputs (w : Word) : (s.setIndex w).inputs = s.inputs := rfl

/-! ### `setDelay` -/

@[simp] theorem setDelay_v (b : Byte) : (s.setDelay b).v = s.v := rfl
@[simp] theorem setDelay_pc (b : Byte) : (s.setDelay b).pc = s.pc := rfl
@[simp] theorem setDelay_i (b : Byte) : (s.setDelay b).i = s.i := rfl
@[simp] theorem setDelay_stack (b : Byte) : (s.setDelay b).stack = s.stack := rfl
@[simp] theorem setDelay_sp (b : Byte) : (s.setDelay b).sp = s.sp := rfl
@[simp] theorem setDelay_dt (b : Byte) : (s.setDelay b).dt = b := rfl
@[simp] theorem setDelay_st (b : Byte) : (s.setDelay b).st = s.st := rfl
@[simp] theorem setDelay_fb (b : Byte) : (s.setDelay b).fb = s.fb := rfl
@[simp] theorem setDelay_k (b : Byte) : (s.setDelay b).k = s.k := rfl
@[simp] theorem setDelay_draw (b : Byte) : (s.setDelay b).draw = s.draw := rfl
@[simp] theorem setDelay_running (b : Byte) : (s.setDelay b).running = s.running := rfl
@[simp] theorem setDelay_started (b : Byte) : (s.setDelay b).started = s.started := rfl
@[simp] theorem setDelay_fault (b : Byte) : (s.setDelay b).fault = s.fault := rfl
@[simp] theorem setDelay_mem (b : Byte) : (s.setDelay b).mem = s.mem := rfl
@[simp] theorem setDelay_initialized (b : Byte) : (s.setDelay b).initialized = s.initialized := rfl
@[simp] theorem setDelay_callmc (b : Byte) : (s.setDelay b).callmc = s.callmc := rfl
@[simp] theorem setDelay_font (b : Byte) : (s.setDelay b).font = s.font := rfl
@[simp] theorem setDelay_script (b : Byte) : (s.setDelay b).script = s.script := rfl
@[simp] theorem setDelay_ticks (b : Byte) : (s.setDelay b).ticks = s.ticks := rfl
@[simp] theorem setDelay_out (b : Byte) : (s.setDelay b).out = s.out := rfl
@[simp] theorem setDelay_reply (b : Byte) : (s.setDelay b).reply = s.reply := rfl
@[simp] theorem setDelay_reg (b : Byte) (x0 : Nibble) : (s.setDelay b).reg x0 = s.reg x0 := rfl
@[simp] theorem setDelay_inputs (b : Byte) : (s.setDelay b).inputs = s.inputs := rfl

/-! ### `setSound` -/

@[simp] theorem setSound_v (b : Byte) : (s.setSound b).v = s.v := rfl
@[simp] theorem setSound_pc (b : Byte) : (s.setSound b).pc = s.pc := rfl
@[simp] theorem setSound_i (b : Byte) : (s.setSound b).i = s.i := rfl
@[simp] theorem setSound_stack (b : Byte) : (s.setSound b).stack = s.stack := rfl
@[simp] theorem setSound_sp (b : Byte) : (s.setSound b).sp = s.sp := rfl
@[simp] theorem setSound_dt (b : Byte) : (s.setSound b).dt = s.dt := rfl
@[simp] theorem setSound_st (b : Byte) : (s.setSound b).st = b := rfl
@[simp] theorem setSound_fb (b : Byte) : (s.setSound b).fb = s.fb := rfl
@[simp] theorem setSound_k (b : Byte) : (s.setSound b).k = s.k := rfl
@[simp] theorem setSound_draw (b : Byte) : (s.setSound b).draw = s.draw := rfl
@[simp] theorem setSound_running (b : Byte) : (s.setSound b).running = s.running := rfl
@[simp] theorem setSound_started (b : Byte) : (s.setSound b).started = s.started := rfl
@[simp] theorem setSound_fault (b : Byte) : (s.setSound b).fault = s.fault := rfl
@[simp] theorem setSound_mem (b : Byte) : (s.setSound b).mem = s.mem := rfl
@[simp] theorem setSound_initialized (b : Byte) : (s.setSound b).initialized = s.initialized := rfl
@[simp] theorem setSound_callmc (b : Byte) : (s.setSound b).callmc = s.callmc := rfl
@[simp] theorem setSound_font (b : Byte) : (s.setSound b).font = s.font := rfl
@[simp] theorem setSound_script (b : Byte) : (s.setSound b).script = s.script := rfl
@[simp] theorem setSound_ticks (b : Byte) : (s.setSound b).ticks = s.ticks := rfl
@[simp] theorem setSound_out (b : Byte) : (s.setSound b).out = s.out := rfl
@[simp] theorem setSound_reply (b : Byte) : (s.setSound b).reply = s.reply := rfl
@[simp] theorem setSound_reg (b : Byte) (x0 : Nibble) : (s.setSound b).reg x0 = s.reg x0 := rfl
@[simp] theorem setSound_inputs (b : Byte) : (s.setSound b).inputs = s.inputs := rfl

/-! ### `setFb` -/

@[simp] theorem setFb_v (f : FrameBuffer) : (s.setFb f).v = s.v := rfl
@[simp] theorem setFb_pc (f : FrameBuffer) : (s.setFb f).pc = s.pc := rfl
@[simp] theorem setFb_i (f : FrameBuffer) : (s.setFb f).i = s.i := rfl
@[simp] theorem setFb_stack (f : FrameBuffer) : (s.setFb f).stack = s.stack := rfl
@[simp] theorem setFb_sp (f : FrameBuffer) : (s.setFb f).sp = s.sp := rfl
@[simp] theorem setFb_dt (f : FrameBuffer) : (s.setFb f).dt = s.dt := rfl
@[simp] theorem setFb_st (f : FrameBuffer) : (s.setFb f).st = s.st := rfl
@[simp] theorem setFb_fb (f : FrameBuffer) : (s.setFb f).fb = f := rfl
@[simp] theorem setFb_k (f : FrameBuffer) : (s.setFb f).k = s.k := rfl
@[simp] theorem setFb_draw (f : FrameBuffer) : (s.setFb f).draw = s.draw := rfl
@[simp] theorem setFb_running (f : FrameBuffer) : (s.setFb f).running = s.running := rfl
@[simp] theorem setFb_started (f : FrameBuffer) : (s.setFb f).started = s.started := rfl
@[simp] theorem setFb_fault (f : FrameBuffer) : (s.setFb f).fault = s.fault := rfl
@[simp] theorem setFb_mem (f : FrameBuffer) : (s.setFb f).mem = s.mem := rfl
@[simp] theorem setFb_initialized (f : FrameBuffer) : (s.setFb f).initialized = s.initialized := rfl
@[simp] theorem setFb_callmc (f : FrameBuffer) : (s.setFb f).callmc = s.callmc := rfl
@[simp] theorem setFb_font (f : FrameBuffer) : (s.setFb f).font = s.font := rfl
@[simp] theorem setFb_script (f : FrameBuffer) : (s.setFb f).script = s.script := rfl
@[simp] theorem setFb_ticks (f : FrameBuffer) : (s.setFb f).ticks = s.ticks := rfl
@[simp] theorem setFb_out (f : FrameBuffer) : (s.setFb f).out = s.out := rfl
@[simp] theorem setFb_reply (f : FrameBuffer) : (s.setFb f).reply = s.reply := rfl
@[simp] theorem setFb_reg (f : FrameBuffer) (x0 : Nibble) : (s.setFb f).reg x0 = s.reg x0 := rfl
@[simp] theorem setFb_inputs (f : FrameBuffer) : (s.setFb f).inputs = s.inputs := rfl

/-! ### `setDraw` -/

@[simp] theorem setDraw_v : (s.setDraw).v = s.v := rfl
@[simp] theorem setDraw_pc : (s.setDraw).pc = s.pc := rfl
@[simp] theorem setDraw_i : (s.setDraw).i = s.i := rfl
@[simp] theorem setDraw_stack : (s.setDraw).stack = s.stack := rfl
@[simp] theorem setDraw_sp : (s.setDraw).sp = s.sp := rfl
@[simp] theorem setDraw_dt : (s.setDraw).dt = s.dt := rfl
@[simp] theorem setDraw_st : (s.setDraw).st = s.st := rfl
@[simp] theorem setDraw_fb : (s.setDraw).fb = s.fb := rfl
@[simp] theorem setDraw_k : (s.setDraw).k = s.k := rfl
@[simp] theorem setDraw_draw : (s.setDraw).draw = true := rfl
@[simp] theorem setDraw_running : (s.setDraw).running = s.running := rfl
@[simp] theorem setDraw_started : (s.setDraw).started = s.started := rfl
@[simp] theorem setDraw_fault : (s.setDraw).fault = s.fault := rfl
@[simp] theorem setDraw_mem : (s.setDraw).mem = s.mem := rfl
@[simp] theorem setDraw_initialized : (s.setDraw).initialized = s.initialized := rfl
@[simp] theorem setDraw_callmc : (s.setDraw).callmc = s.callmc := rfl
@[simp] theorem setDraw_font : (s.setDraw).font = s.font := rfl
@[simp] theorem setDraw_script : (s.setDraw).script = s.script := rfl
@[simp] theorem setDraw_ticks : (s.setDraw).ticks = s.ticks := rfl
@[simp] theorem setDraw_out : (s.setDraw).out = s.out := rfl
@[simp] theorem setDraw_reply : (s.setDraw).reply = s.reply := rfl
@[simp] theorem setDraw_reg (x0 : Nibble) : (s.setDraw).reg x0 = s.reg x0 := rfl
@[simp] theorem setDraw_inputs : (s.setDraw).inputs = s.inputs := rfl

/-! ### `setMem` -/

@[simp] theorem setMem_v (m : Memory) : (s.setMem m).v = s.v := rfl
@[simp] theorem setMem_pc (m : Memory) : (s.setMem m).pc = s.pc := rfl
@[simp] theorem setMem_i (m : Memory) : (s.setMem m).i = s.i := rfl
@[simp] theorem setMem_stack (m : Memory) : (s.setMem m).stack = s.stack := rfl
@[simp] theorem setMem_sp (m : Memory) : (s.setMem m).sp = s.sp := rfl
@[simp] theorem setMem_dt (m : Memory) : (s.setMem m).dt = s.dt := rfl
@[simp] theorem setMem_st (m : Memory) : (s.setMem m).st = s.st := rfl
@[simp] theorem setMem_fb (m : Memory) : (s.setMem m).fb = s.fb := rfl
@[simp] theorem setMem_k (m : Memory) : (s.setMem m).k = s.k := rfl
@[simp] theorem setMem_draw (m : Memory) : (s.setMem m).draw = s.draw := rfl
@[simp] theorem setMem_running (m : Memory) : (s.setMem m).running = s.running := rfl
@[simp] theorem setMem_started (m : Memory) : (s.setMem m).started = s.started := rfl
@[simp] theorem setMem_fault (m : Memory) : (s.setMem m).fault = s.fault := rfl
@[simp] theorem setMem_mem (m : Memory) : (s.setMem m).mem = m := rfl
@[simp] theorem setMem_initialized (m : Memory) : (s.setMem m).initialized = s.initialized := rfl
@[simp] theorem setMem_callmc (m : Memory) : (s.setMem m).callmc = s.callmc := rfl
@[simp] theorem setMem_font (m : Memory) : (s.setMem m).font = s.font := rfl
@[simp] theorem setMem_script (m : Memory) : (s.setMem m).script = s.script := rfl
@[simp] theorem setMem_ticks (m : Memory) : (s.setMem m).ticks = s.ticks := rfl
@[simp] theorem setMem_out (m : Memory) : (s.setMem m).out = s.out := rfl
@[simp] theorem setMem_reply (m : Memory) : (s.setMem m).reply = s.reply := rfl
@[simp] theorem setMem_reg (m : Memory) (x0 : Nibble) : (s.setMem m).reg x0 = s.reg x0 := rfl
@[simp] theorem setMem_inputs (m : Memory) : (s.setMem m).inputs = s.inputs := rfl

/-! ### `setSp` -/

@[simp] theorem setSp_v (p : Fin 16) : (s.setSp p).v = s.v := rfl
@[simp] theorem setSp_pc (p : Fin 16) : (s.setSp p).pc = s.pc := rfl
@[simp] theorem setSp_i (p : Fin 16) : (s.setSp p).i = s.i := rfl
@[simp] theorem setSp_stack (p : Fin 16) : (s.setSp p).stack = s.stack := rfl
@[simp] theorem setSp_sp (p : Fin 16) : (s.setSp p).sp = p := rfl
@[simp] theorem setSp_dt (p : Fin 16) : (s.setSp p).dt = s.dt := rfl
@[simp] theorem setSp_st (p : Fin 16) : (s.setSp p).st = s.st := rfl
@[simp] theorem setSp_fb (p : Fin 16) : (s.setSp p).fb = s.fb := rfl
@[simp] theorem setSp_k (p : Fin 16) : (s.setSp p).k = s.k := rfl
@[simp] theorem setSp_draw (p : Fin 16) : (s.setSp p).draw = s.draw := rfl
@[simp] theorem setSp_running (p : Fin 16) : (s.setSp p).running = s.running := rfl
@[simp] theorem setSp_started (p : Fin 16) : (s.setSp p).started = s.started := rfl
@[simp] theorem setSp_fault (p : Fin 16) : (s.setSp p).fault = s.fault := rfl
@[simp] theorem setSp_mem (p : Fin 16) : (s.setSp p).mem = s.mem := rfl
@[simp] theorem setSp_initialized (p : Fin 16) : (s.setSp p).initialized = s.initialized := rfl
@[simp] theorem setSp_callmc (p : Fin 16) : (s.setSp p).callmc = s.callmc := rfl
@[simp] theorem setSp_font (p : Fin 16) : (s.setSp p).font = s.font := rfl
@[simp] theorem setSp_script (p : Fin 16) : (s.setSp p).script = s.script := rfl
@[simp] theorem setSp_ticks (p : Fin 16) : (s.setSp p).ticks = s.ticks := rfl
@[simp] theorem setSp_out (p : Fin 16) : (s.setSp p).out = s.out := rfl
@[simp] theorem setSp_reply (p : Fin 16) : (s.setSp p).reply = s.reply := rfl
@[simp] theorem setSp_reg (p : Fin 16) (x0 : Nibble) : (s.setSp p).reg x0 = s.reg x0 := rfl
@[simp] theorem setSp_inputs (p : Fin 16) : (s.setSp p).inputs = s.inputs := rfl

/-! ### `setTop` -/

@[simp] theorem setTop_v (w : Word) : (s.setTop w).v = s.v := rfl
@[simp] theorem setTop_pc (w : Word) : (s.setTop w).pc = s.pc := rfl
@[simp] theorem setTop_i (w : Word) : (s.setTop w).i = s.i := rfl
@[simp] theorem setTop_stack (w : Word) : (s.setTop w).stack = s.stack.set s.sp.val w := rfl
@[simp] theorem setTop_sp (w : Word) : (s.setTop w).sp = s.sp := rfl
@[simp] theorem setTop_dt (w : Word) : (s.setTop w).dt = s.dt := rfl
@[simp] theorem setTop_st (w : Word) : (s.setTop w).st = s.st := rfl
@[simp] theorem setTop_fb (w : Word) : (s.setTop w).fb = s.fb := rfl
@[simp] theorem setTop_k (w : Word) : (s.setTop w).k = s.k := rfl
@[simp] theorem setTop_draw (w : Word) : (s.setTop w).draw = s.draw := rfl
@[simp] theorem setTop_running (w : Word) : (s.setTop w).running = s.running := rfl
@[simp] theorem setTop_started (w : Word) : (s.setTop w).started = s.started := rfl
@[simp] theorem setTop_fault (w : Word) : (s.setTop w).fault = s.fault := rfl
@[simp] theorem setTop_mem (w : Word) : (s.setTop w).mem = s.mem := rfl
@[simp] theorem setTop_initialized (w : Word) : (s.setTop w).initialized = s.initialized := rfl
@[simp] theorem setTop_callmc (w : Word) : (s.setTop w).callmc = s.callmc := rfl
@[simp] theorem setTop_font (w : Word) : (s.setTop w).font = s.font := rfl
@[simp] theorem setTop_script (w : Word) : (s.setTop w).script = s.script := rfl
@[simp] theorem setTop_ticks (w : Word) : (s.setTop w).ticks = s.ticks := rfl
@[simp] theorem setTop_out (w : Word) : (s.setTop w).out = s.out := rfl
@[simp] theorem setTop_reply (w : Word) : (s.setTop w).reply = s.reply := rfl
@[simp] theorem setTop_reg (w : Word) (x0 : Nibble) : (s.setTop w).reg x0 = s.reg x0 := rfl
@[simp] theorem setTop_inputs (w : Word) : (s.setTop w).inputs = s.inputs := rfl

/-! ### `takeFault` -/

@[simp] theorem takeFault_v (f : CoreFault) : (takeFault f s).v = s.v := rfl
@[simp] theorem takeFault_pc (f : CoreFault) : (takeFault f s).pc = s.pc := rfl
@[simp] theorem takeFault_i (f : CoreFault) : (takeFault f s).i = s.i := rfl
@[simp] theorem takeFault_stack (f : CoreFault) : (takeFault f s).stack = s.stack := rfl
@[simp] theorem takeFault_sp (f : CoreFault) : (takeFault f s).sp = s.sp := rfl
@[simp] theorem takeFault_dt (f : CoreFault) : (takeFault f s).dt = s.dt := rfl
@[simp] theorem takeFault_st (f : CoreFault) : (takeFault f s).st = s.st := rfl
@[simp] theorem takeFault_fb (f : CoreFault) : (takeFault f s).fb = s.fb := rfl
@[simp] theorem takeFault_k (f : CoreFault) : (takeFault f s).k = s.k := rfl
@[simp] theorem takeFault_draw (f : CoreFault) : (takeFault f s).draw = s.draw := rfl
@[simp] theorem takeFault_running (f : CoreFault) : (takeFault f s).running = false := rfl
@[simp] theorem takeFault_started (f : CoreFault) : (takeFault f s).started = s.started := rfl
@[simp] theorem takeFault_fault (f : CoreFault) : (takeFault f s).fault = some f := rfl
@[simp] theorem takeFault_mem (f : CoreFault) : (takeFault f s).mem = s.mem := rfl
@[simp] theorem takeFault_initialized (f : CoreFault) : (takeFault f s).initialized = s.initialized := rfl
@[simp] theorem takeFault_callmc (f : CoreFault) : (takeFault f s).callmc = s.callmc := rfl
@[simp] theorem takeFault_font (f : CoreFault) : (takeFault f s).font = s.font := rfl
@[simp] theorem takeFault_script (f : CoreFault) : (takeFault f s).script = s.script := rfl
@[simp] theorem takeFault_ticks (f : CoreFault) : (takeFault f s).ticks = s.ticks := rfl
@[simp] theorem takeFault_out (f : CoreFault) : (takeFault f s).out = s.out ++ [.faultOut f, .stopped] := rfl
@[simp] theorem takeFault_reply (f : CoreFault) : (takeFault f s).reply = s.reply := rfl
@[simp] theorem takeFault_reg (f : CoreFault) (x0 : Nibble) : (takeFault f s).reg x0 = s.reg x0 := rfl
@[simp] theorem takeFault_inputs (f : CoreFault) : (takeFault f s).inputs = s.inputs := rfl

/-! ### `writeFlagThen` -/

@[simp] theorem writeFlagThen_v (x : Nibble) (c b : Byte) : (s.writeFlagThen x c b).v = (s.v.set 15 c).set x.toNat b := rfl
@[simp] theorem writeFlagThen_pc (x : Nibble) (c b : Byte) : (s.writeFlagThen x c b).pc = s.pc := rfl
@[simp] theorem writeFlagThen_i (x : Nibble) (c b : Byte) : (s.writeFlagThen x c b).i = s.i := rfl
@[simp] theorem writeFlagThen_stack (x : Nibble) (c b : Byte) : (s.writeFlagThen x c b).stack = s.stack := rfl
@[simp] theorem writeFlagThen_sp (x : Nibble) (c b : Byte) : (s.writeFlagThen x c b).sp = s.sp := rfl
@[simp] theorem writeFlagThen_dt (x : Nibble) (c b : Byte) : (s.writeFlagThen x c b).dt = s.dt := rfl
@[simp] theorem writeFlagThen_st (x : Nibble) (c b : Byte) : (s.writeFlagThen x c b).st = s.st := rfl
@[simp] theorem writeFlagThen_fb (x : Nibble) (c b : Byte) : (s.writeFlagThen x c b).fb = s.fb := rfl
@[simp] theorem writeFlagThen_k (x : Nibble) (c b : Byte) : (s.writeFlagThen x c b).k = s.k := rfl
@[simp] theorem writeFlagThen_draw (x : Nibble) (c b : Byte) : (s.writeFlagThen x c b).draw = s.draw := rfl
@[simp] theorem writeFlagThen_running (x : Nibble) (c b : Byte) : (s.writeFlagThen x c b).running = s.running := rfl
@[simp] theorem writeFlagThen_started (x : Nibble) (c b : Byte) : (s.writeFlagThen x c b).started = s.started := rfl
@[simp] theorem writeFlagThen_fault (x : Nibble) (c b : Byte) : (s.writeFlagThen x c b).fault = s.fault := rfl
@[simp] theorem writeFlagThen_mem (x : Nibble) (c b : Byte) : (s.writeFlagThen x c b).mem = s.mem := rfl
@[simp] theorem writeFlagThen_initialized (x : Nibble) (c b : Byte) : (s.writeFlagThen x c b).initialized = s.initialized := rfl
@[simp] theorem writeFlagThen_callmc (x : Nibble) (c b : Byte) : (s.writeFlagThen x c b).callmc = s.callmc := rfl
@[simp] theorem writeFlagThen_font (x : Nibble) (c b : Byte) : (s.writeFlagThen x c b).font = s.font := rfl
@[simp] theorem writeFlagThen_script (x : Nibble) (c b : Byte) : (s.writeFlagThen x c b).script = s.script := rfl
@[simp] theorem writeFlagThen_ticks (x : Nibble) (c b : Byte) : (s.writeFlagThen x c b).ticks = s.ticks := rfl
@[simp] theorem writeFlagThen_out (x : Nibble) (c b : Byte) : (s.writeFlagThen x c b).out = s.out := rfl
@[simp] theorem writeFlagThen_reply (x : Nibble) (c b : Byte) : (s.writeFlagThen x c b).reply = s.reply := rfl
@[simp] theorem writeFlagThen_inputs (x : Nibble) (c b : Byte) : (s.writeFlagThen x c b).inputs = s.inputs := rfl

/-! ### `finishBlit` -/

@[simp] theorem finishBlit_v (c : Bool) : (s.finishBlit c).v = s.v.set 15 (flagByte c) := rfl
@[simp] theorem finishBlit_pc (c : Bool) : (s.finishBlit c).pc = s.pc := rfl
@[simp] theorem finishBlit_i (c : Bool) : (s.finishBlit c).i = s.i := rfl
@[simp] theorem finishBlit_stack (c : Bool) : (s.finishBlit c).stack = s.stack := rfl
@[simp] theorem finishBlit_sp (c : Bool) : (s.finishBlit c).sp = s.sp := rfl
@[simp] theorem finishBlit_dt (c : Bool) : (s.finishBlit c).dt = s.dt := rfl
@[simp] theorem finishBlit_st (c : Bool) : (s.finishBlit c).st = s.st := rfl
@[simp] theorem finishBlit_fb (c : Bool) : (s.finishBlit c).fb = s.fb := rfl
@[simp] theorem finishBlit_k (c : Bool) : (s.finishBlit c).k = s.k := rfl
@[simp] theorem finishBlit_draw (c : Bool) : (s.finishBlit c).draw = true := rfl
@[simp] theorem finishBlit_running (c : Bool) : (s.finishBlit c).running = s.running := rfl
@[simp] theorem finishBlit_started (c : Bool) : (s.finishBlit c).started = s.started := rfl
@[simp] theorem finishBlit_fault (c : Bool) : (s.finishBlit c).fault = s.fault := rfl
@[simp] theorem finishBlit_mem (c : Bool) : (s.finishBlit c).mem = s.mem := rfl
@[simp] theorem finishBlit_initialized (c : Bool) : (s.finishBlit c).initialized = s.initialized := rfl
@[simp] theorem finishBlit_callmc (c : Bool) : (s.finishBlit c).callmc = s.callmc := rfl
@[simp] theorem finishBlit_font (c : Bool) : (s.finishBlit c).font = s.font := rfl
@[simp] theorem finishBlit_script (c : Bool) : (s.finishBlit c).script = s.script := rfl
@[simp] theorem finishBlit_ticks (c : Bool) : (s.finishBlit c).ticks = s.ticks := rfl
@[simp] theorem finishBlit_out (c : Bool) : (s.finishBlit c).out = s.out := rfl
@[simp] theorem finishBlit_reply (c : Bool) : (s.finishBlit c).reply = s.reply := rfl
@[simp] theorem finishBlit_inputs (c : Bool) : (s.finishBlit c).inputs = s.inputs := rfl

/-! ### `answer` -/

@[simp] theorem answer_v (r : HostReply) : (s.answer r).v = s.v := rfl
@[simp] theorem answer_pc (r : HostReply) : (s.answer r).pc = s.pc := rfl
@[simp] theorem answer_i (r : HostReply) : (s.answer r).i = s.i := rfl
@[simp] theorem answer_stack (r : HostReply) : (s.answer r).stack = s.stack := rfl
@[simp] theorem answer_sp (r : HostReply) : (s.answer r).sp = s.sp := rfl
@[simp] theorem answer_dt (r : HostReply) : (s.answer r).dt = s.dt := rfl
@[simp] theorem answer_st (r : HostReply) : (s.answer r).st = s.st := rfl
@[simp] theorem answer_fb (r : HostReply) : (s.answer r).fb = s.fb := rfl
@[simp] theorem answer_k (r : HostReply) : (s.answer r).k = s.k := rfl
@[simp] theorem answer_draw (r : HostReply) : (s.answer r).draw = s.draw := rfl
@[simp] theorem answer_running (r : HostReply) : (s.answer r).running = s.running := rfl
@[simp] theorem answer_started (r : HostReply) : (s.answer r).started = s.started := rfl
@[simp] theorem answer_fault (r : HostReply) : (s.answer r).fault = s.fault := rfl
@[simp] theorem answer_mem (r : HostReply) : (s.answer r).mem = s.mem := rfl
@[simp] theorem answer_initialized (r : HostReply) : (s.answer r).initialized = s.initialized := rfl
@[simp] theorem answer_callmc (r : HostReply) : (s.answer r).callmc = s.callmc := rfl
@[simp] theorem answer_font (r : HostReply) : (s.answer r).font = s.font := rfl
@[simp] theorem answer_script (r : HostReply) : (s.answer r).script = s.script := rfl
@[simp] theorem answer_ticks (r : HostReply) : (s.answer r).ticks = s.ticks := rfl
@[simp] theorem answer_out (r : HostReply) : (s.answer r).out = s.out := rfl
@[simp] theorem answer_reply (r : HostReply) : (s.answer r).reply = some r := rfl
@[simp] theorem answer_reg (r : HostReply) (x0 : Nibble) : (s.answer r).reg x0 = s.reg x0 := rfl
@[simp] theorem answer_inputs (r : HostReply) : (s.answer r).inputs = s.inputs := rfl

/-! ### `begin` -/

@[simp] theorem begin_v : (s.begin).v = s.v := rfl
@[simp] theorem begin_pc : (s.begin).pc = if s.started then s.pc else Config.entry := rfl
@[simp] theorem begin_i : (s.begin).i = s.i := rfl
@[simp] theorem begin_stack : (s.begin).stack = s.stack := rfl
@[simp] theorem begin_sp : (s.begin).sp = s.sp := rfl
@[simp] theorem begin_dt : (s.begin).dt = s.dt := rfl
@[simp] theorem begin_st : (s.begin).st = s.st := rfl
@[simp] theorem begin_fb : (s.begin).fb = s.fb := rfl
@[simp] theorem begin_k : (s.begin).k = s.k := rfl
@[simp] theorem begin_draw : (s.begin).draw = s.draw := rfl
@[simp] theorem begin_running : (s.begin).running = true := rfl
@[simp] theorem begin_started : (s.begin).started = true := rfl
@[simp] theorem begin_fault : (s.begin).fault = s.fault := rfl
@[simp] theorem begin_mem : (s.begin).mem = s.mem := rfl
@[simp] theorem begin_initialized : (s.begin).initialized = s.initialized := rfl
@[simp] theorem begin_callmc : (s.begin).callmc = s.callmc := rfl
@[simp] theorem begin_font : (s.begin).font = s.font := rfl
@[simp] theorem begin_script : (s.begin).script = s.script := rfl
@[simp] theorem begin_ticks : (s.begin).ticks = s.ticks := rfl
@[simp] theorem begin_out : (s.begin).out = s.out := rfl
@[simp] theorem begin_reply : (s.begin).reply = s.reply := rfl
@[simp] theorem begin_reg (x0 : Nibble) : (s.begin).reg x0 = s.reg x0 := rfl
@[simp] theorem begin_inputs : (s.begin).inputs = s.inputs := rfl

/-! ### `clearOutputs` -/

@[simp] theorem clearOutputs_v : (s.clearOutputs).v = s.v := rfl
@[simp] theorem clearOutputs_pc : (s.clearOutputs).pc = s.pc := rfl
@[simp] theorem clearOutputs_i : (s.clearOutputs).i = s.i := rfl
@[simp] theorem clearOutputs_stack : (s.clearOutputs).stack = s.stack := rfl
@[simp] theorem clearOutputs_sp : (s.clearOutputs).sp = s.sp := rfl
@[simp] theorem clearOutputs_dt : (s.clearOutputs).dt = s.dt := rfl
@[simp] theorem clearOutputs_st : (s.clearOutputs).st = s.st := rfl
@[simp] theorem clearOutputs_fb : (s.clearOutputs).fb = s.fb := rfl
@[simp] theorem clearOutputs_k : (s.clearOutputs).k = s.k := rfl
@[simp] theorem clearOutputs_draw : (s.clearOutputs).draw = s.draw := rfl
@[simp] theorem clearOutputs_running : (s.clearOutputs).running = s.running := rfl
@[simp] theorem clearOutputs_started : (s.clearOutputs).started = s.started := rfl
@[simp] theorem clearOutputs_fault : (s.clearOutputs).fault = s.fault := rfl
@[simp] theorem clearOutputs_mem : (s.clearOutputs).mem = s.mem := rfl
@[simp] theorem clearOutputs_initialized : (s.clearOutputs).initialized = s.initialized := rfl
@[simp] theorem clearOutputs_callmc : (s.clearOutputs).callmc = s.callmc := rfl
@[simp] theorem clearOutputs_font : (s.clearOutputs).font = s.font := rfl
@[simp] theorem clearOutputs_script : (s.clearOutputs).script = s.script := rfl
@[simp] theorem clearOutputs_ticks : (s.clearOutputs).ticks = s.ticks := rfl
@[simp] theorem clearOutputs_out : (s.clearOutputs).out = [] := rfl
@[simp] theorem clearOutputs_reply : (s.clearOutputs).reply = none := rfl
@[simp] theorem clearOutputs_reg (x0 : Nibble) : (s.clearOutputs).reg x0 = s.reg x0 := rfl
@[simp] theorem clearOutputs_inputs : (s.clearOutputs).inputs = s.inputs := rfl

/-! ### `advanceInputs` -/

@[simp] theorem advanceInputs_v : (s.advanceInputs).v = s.v := rfl
@[simp] theorem advanceInputs_pc : (s.advanceInputs).pc = s.pc := rfl
@[simp] theorem advanceInputs_i : (s.advanceInputs).i = s.i := rfl
@[simp] theorem advanceInputs_stack : (s.advanceInputs).stack = s.stack := rfl
@[simp] theorem advanceInputs_sp : (s.advanceInputs).sp = s.sp := rfl
@[simp] theorem advanceInputs_dt : (s.advanceInputs).dt = s.dt := rfl
@[simp] theorem advanceInputs_st : (s.advanceInputs).st = s.st := rfl
@[simp] theorem advanceInputs_fb : (s.advanceInputs).fb = s.fb := rfl
@[simp] theorem advanceInputs_k : (s.advanceInputs).k = s.k := rfl
@[simp] theorem advanceInputs_draw : (s.advanceInputs).draw = s.draw := rfl
@[simp] theorem advanceInputs_running : (s.advanceInputs).running = s.running := rfl
@[simp] theorem advanceInputs_started : (s.advanceInputs).started = s.started := rfl
@[simp] theorem advanceInputs_fault : (s.advanceInputs).fault = s.fault := rfl
@[simp] theorem advanceInputs_mem : (s.advanceInputs).mem = s.mem := rfl
@[simp] theorem advanceInputs_initialized : (s.advanceInputs).initialized = s.initialized := rfl
@[simp] theorem advanceInputs_callmc : (s.advanceInputs).callmc = s.callmc := rfl
@[simp] theorem advanceInputs_font : (s.advanceInputs).font = s.font := rfl
@[simp] theorem advanceInputs_script : (s.advanceInputs).script = s.script.tail := rfl
@[simp] theorem advanceInputs_ticks : (s.advanceInputs).ticks = s.ticks + 1 := rfl
@[simp] theorem advanceInputs_out : (s.advanceInputs).out = s.out := rfl
@[simp] theorem advanceInputs_reply : (s.advanceInputs).reply = s.reply := rfl
@[simp] theorem advanceInputs_reg (x0 : Nibble) : (s.advanceInputs).reg x0 = s.reg x0 := rfl

/-! ### `sampleKeys` -/

@[simp] theorem sampleKeys_v : (s.sampleKeys).v = s.v := rfl
@[simp] theorem sampleKeys_pc : (s.sampleKeys).pc = s.pc := rfl
@[simp] theorem sampleKeys_i : (s.sampleKeys).i = s.i := rfl
@[simp] theorem sampleKeys_stack : (s.sampleKeys).stack = s.stack := rfl
@[simp] theorem sampleKeys_sp : (s.sampleKeys).sp = s.sp := rfl
@[simp] theorem sampleKeys_dt : (s.sampleKeys).dt = s.dt := rfl
@[simp] theorem sampleKeys_st : (s.sampleKeys).st = s.st := rfl
@[simp] theorem sampleKeys_fb : (s.sampleKeys).fb = s.fb := rfl
@[simp] theorem sampleKeys_k : (s.sampleKeys).k = keysOf s.inputs.keyIn := rfl
@[simp] theorem sampleKeys_draw : (s.sampleKeys).draw = s.draw := rfl
@[simp] theorem sampleKeys_running : (s.sampleKeys).running = s.running := rfl
@[simp] theorem sampleKeys_started : (s.sampleKeys).started = s.started := rfl
@[simp] theorem sampleKeys_fault : (s.sampleKeys).fault = s.fault := rfl
@[simp] theorem sampleKeys_mem : (s.sampleKeys).mem = s.mem := rfl
@[simp] theorem sampleKeys_initialized : (s.sampleKeys).initialized = s.initialized := rfl
@[simp] theorem sampleKeys_callmc : (s.sampleKeys).callmc = s.callmc := rfl
@[simp] theorem sampleKeys_font : (s.sampleKeys).font = s.font := rfl
@[simp] theorem sampleKeys_script : (s.sampleKeys).script = s.script := rfl
@[simp] theorem sampleKeys_ticks : (s.sampleKeys).ticks = s.ticks := rfl
@[simp] theorem sampleKeys_out : (s.sampleKeys).out = s.out := rfl
@[simp] theorem sampleKeys_reply : (s.sampleKeys).reply = s.reply := rfl
@[simp] theorem sampleKeys_reg (x0 : Nibble) : (s.sampleKeys).reg x0 = s.reg x0 := rfl
@[simp] theorem sampleKeys_inputs : (s.sampleKeys).inputs = s.inputs := rfl

/-! ### `tickTimers` -/

@[simp] theorem tickTimers_v : (s.tickTimers).v = s.v := rfl
@[simp] theorem tickTimers_pc : (s.tickTimers).pc = s.pc := rfl
@[simp] theorem tickTimers_i : (s.tickTimers).i = s.i := rfl
@[simp] theorem tickTimers_stack : (s.tickTimers).stack = s.stack := rfl
@[simp] theorem tickTimers_sp : (s.tickTimers).sp = s.sp := rfl
@[simp] theorem tickTimers_dt : (s.tickTimers).dt = tickTimer s.dt := rfl
@[simp] theorem tickTimers_st : (s.tickTimers).st = tickTimer s.st := rfl
@[simp] theorem tickTimers_fb : (s.tickTimers).fb = s.fb := rfl
@[simp] theorem tickTimers_k : (s.tickTimers).k = s.k := rfl
@[simp] theorem tickTimers_draw : (s.tickTimers).draw = s.draw := rfl
@[simp] theorem tickTimers_running : (s.tickTimers).running = s.running := rfl
@[simp] theorem tickTimers_started : (s.tickTimers).started = s.started := rfl
@[simp] theorem tickTimers_fault : (s.tickTimers).fault = s.fault := rfl
@[simp] theorem tickTimers_mem : (s.tickTimers).mem = s.mem := rfl
@[simp] theorem tickTimers_initialized : (s.tickTimers).initialized = s.initialized := rfl
@[simp] theorem tickTimers_callmc : (s.tickTimers).callmc = s.callmc := rfl
@[simp] theorem tickTimers_font : (s.tickTimers).font = s.font := rfl
@[simp] theorem tickTimers_script : (s.tickTimers).script = s.script := rfl
@[simp] theorem tickTimers_ticks : (s.tickTimers).ticks = s.ticks := rfl
@[simp] theorem tickTimers_out : (s.tickTimers).out = s.out := rfl
@[simp] theorem tickTimers_reply : (s.tickTimers).reply = s.reply := rfl
@[simp] theorem tickTimers_reg (x0 : Nibble) : (s.tickTimers).reg x0 = s.reg x0 := rfl
@[simp] theorem tickTimers_inputs : (s.tickTimers).inputs = s.inputs := rfl

/-! ### Registers -/

/-- Reading a register after writing one. -/
theorem reg_setReg (x r : Nibble) (b : Byte) : (s.setReg x b).reg r = if r = x then b else s.reg r := by
  simp only [State.reg, State.setReg, Vector.getElem_set, BitVec.toNat_inj, eq_comm]

@[simp] theorem reg_setReg_same (x : Nibble) (b : Byte) : (s.setReg x b).reg x = b := by
  simp [reg_setReg]

@[simp] theorem reg_setReg_ne {x r : Nibble} (b : Byte) (h : r ≠ x) : (s.setReg x b).reg r = s.reg r := by
  simp [reg_setReg, h]

/-- A register after a flag and a result were written: the result wins over the flag (R135 case b). -/
theorem reg_writeFlagThen (x r : Nibble) (c b : Byte) :
    (s.writeFlagThen x c b).reg r = if r = x then b else if r = vfIdx then c else s.reg r := by
  simp [State.writeFlagThen, reg_setReg]

/-! ### `notify`, `soundBeep`, `endCycle` -/

@[simp] theorem notify_v : s.notify.v = s.v := by unfold State.notify; split <;> rfl
@[simp] theorem notify_pc : s.notify.pc = s.pc := by unfold State.notify; split <;> rfl
@[simp] theorem notify_i : s.notify.i = s.i := by unfold State.notify; split <;> rfl
@[simp] theorem notify_stack : s.notify.stack = s.stack := by unfold State.notify; split <;> rfl
@[simp] theorem notify_sp : s.notify.sp = s.sp := by unfold State.notify; split <;> rfl
@[simp] theorem notify_dt : s.notify.dt = s.dt := by unfold State.notify; split <;> rfl
@[simp] theorem notify_st : s.notify.st = s.st := by unfold State.notify; split <;> rfl
@[simp] theorem notify_fb : s.notify.fb = s.fb := by unfold State.notify; split <;> rfl
@[simp] theorem notify_k : s.notify.k = s.k := by unfold State.notify; split <;> rfl
@[simp] theorem notify_running : s.notify.running = s.running := by unfold State.notify; split <;> rfl
@[simp] theorem notify_started : s.notify.started = s.started := by unfold State.notify; split <;> rfl
@[simp] theorem notify_fault : s.notify.fault = s.fault := by unfold State.notify; split <;> rfl
@[simp] theorem notify_mem : s.notify.mem = s.mem := by unfold State.notify; split <;> rfl
@[simp] theorem notify_initialized : s.notify.initialized = s.initialized := by unfold State.notify; split <;> rfl
@[simp] theorem notify_callmc : s.notify.callmc = s.callmc := by unfold State.notify; split <;> rfl
@[simp] theorem notify_font : s.notify.font = s.font := by unfold State.notify; split <;> rfl
@[simp] theorem notify_script : s.notify.script = s.script := by unfold State.notify; split <;> rfl
@[simp] theorem notify_ticks : s.notify.ticks = s.ticks := by unfold State.notify; split <;> rfl
@[simp] theorem notify_reply : s.notify.reply = s.reply := by unfold State.notify; split <;> rfl
@[simp] theorem notify_draw : s.notify.draw = false := by unfold State.notify; split <;> simp_all
@[simp] theorem notify_out :
    s.notify.out = s.out ++ (if s.draw then [.updated, .frameReady] else [.updated]) := by
  unfold State.notify; split <;> rfl

@[simp] theorem soundBeep_v : s.soundBeep.v = s.v := by unfold State.soundBeep; split <;> rfl
@[simp] theorem soundBeep_pc : s.soundBeep.pc = s.pc := by unfold State.soundBeep; split <;> rfl
@[simp] theorem soundBeep_i : s.soundBeep.i = s.i := by unfold State.soundBeep; split <;> rfl
@[simp] theorem soundBeep_stack : s.soundBeep.stack = s.stack := by unfold State.soundBeep; split <;> rfl
@[simp] theorem soundBeep_sp : s.soundBeep.sp = s.sp := by unfold State.soundBeep; split <;> rfl
@[simp] theorem soundBeep_dt : s.soundBeep.dt = s.dt := by unfold State.soundBeep; split <;> rfl
@[simp] theorem soundBeep_st : s.soundBeep.st = s.st := by unfold State.soundBeep; split <;> rfl
@[simp] theorem soundBeep_fb : s.soundBeep.fb = s.fb := by unfold State.soundBeep; split <;> rfl
@[simp] theorem soundBeep_k : s.soundBeep.k = s.k := by unfold State.soundBeep; split <;> rfl
@[simp] theorem soundBeep_draw : s.soundBeep.draw = s.draw := by unfold State.soundBeep; split <;> rfl
@[simp] theorem soundBeep_running : s.soundBeep.running = s.running := by unfold State.soundBeep; split <;> rfl
@[simp] theorem soundBeep_started : s.soundBeep.started = s.started := by unfold State.soundBeep; split <;> rfl
@[simp] theorem soundBeep_fault : s.soundBeep.fault = s.fault := by unfold State.soundBeep; split <;> rfl
@[simp] theorem soundBeep_mem : s.soundBeep.mem = s.mem := by unfold State.soundBeep; split <;> rfl
@[simp] theorem soundBeep_initialized : s.soundBeep.initialized = s.initialized := by unfold State.soundBeep; split <;> rfl
@[simp] theorem soundBeep_callmc : s.soundBeep.callmc = s.callmc := by unfold State.soundBeep; split <;> rfl
@[simp] theorem soundBeep_font : s.soundBeep.font = s.font := by unfold State.soundBeep; split <;> rfl
@[simp] theorem soundBeep_script : s.soundBeep.script = s.script := by unfold State.soundBeep; split <;> rfl
@[simp] theorem soundBeep_ticks : s.soundBeep.ticks = s.ticks := by unfold State.soundBeep; split <;> rfl
@[simp] theorem soundBeep_reply : s.soundBeep.reply = s.reply := by unfold State.soundBeep; split <;> rfl
@[simp] theorem soundBeep_out : s.soundBeep.out = s.out ++ (if s.st.toNat > 0 then [.beep] else []) := by
  unfold State.soundBeep; split <;> simp

/-- In a cycle that faulted nothing follows execution (R96). -/
theorem endCycle_of_fault {f : CoreFault} (h : s.fault = some f) : s.endCycle = s := by
  simp [State.endCycle, h]

/-- In a cycle that did not fault, outputs and timer tick follow execution. -/
theorem endCycle_of_none (h : s.fault = none) : s.endCycle = s.notify.tickTimers.soundBeep := by
  simp [State.endCycle, h]

end Sys2Proof.Machine
end

