-- ==== Sys2Proof/Laws/Ops.lean ====
section
/-! SUPPORT. What each shared operation can do, said once: the provers cite these and do not unfold the operations. -/

namespace Sys2Proof.Machine

/-! ## Results -/

@[simp] theorem outcome_done (s : State) : (Result.done s).outcome = .next s := rfl
@[simp] theorem outcome_raised (f : CoreFault) (s : State) : (Result.raised f s).outcome = .next (takeFault f s) := rfl
@[simp] theorem commit_done (s : State) : (Result.done s).commit = s := rfl
@[simp] theorem commit_raised (f : CoreFault) (s : State) : (Result.raised f s).commit = takeFault f s := rfl

/-! ## Program counter -/

/-- `Next()` inside the valid range. -/
theorem pcNext_of_lt {s : State} (h : s.pc.toNat + 2 < 4096) : s.pcNext = .done (s.setPc (s.pc + 2#16)) := by
  rw [State.pcNext, if_neg (by simp only [Config.memSize]; omega)]

/-- `Next()` out of it. -/
theorem pcNext_of_ge {s : State} (h : 4096 ≤ s.pc.toNat + 2) :
    s.pcNext = .raised (.programCounterOverflow s.pc) s := by
  rw [State.pcNext, if_pos (by simp only [Config.memSize]; omega)]

theorem pcRestore_of_le {s : State} (h : 2 ≤ s.pc.toNat) : s.pcRestore = .done (s.setPc (s.pc - 2#16)) := by
  rw [State.pcRestore, if_neg (by omega)]

theorem pcRestore_of_lt {s : State} (h : s.pc.toNat < 2) :
    s.pcRestore = .raised (.programCounterUnderflow s.pc) s := by
  rw [State.pcRestore, if_pos h]

@[simp] theorem skipIf_false (s : State) : s.skipIf false = .done s := rfl
@[simp] theorem skipIf_true (s : State) : s.skipIf true = s.pcNext := rfl

/-- Everything a skip can do: nothing, one `Next()`, or its fault. -/
theorem skipIf_commit_cases (s : State) (c : Bool) :
    (c = false ∧ (s.skipIf c).commit = s) ∨
    (c = true ∧ s.pc.toNat + 2 < 4096 ∧ (s.skipIf c).commit = (s.setPc (s.pc + 2#16))) ∨
    (c = true ∧ 4096 ≤ s.pc.toNat + 2 ∧ (s.skipIf c).commit = takeFault (.programCounterOverflow s.pc) s) := by
  cases c
  · exact .inl ⟨rfl, rfl⟩
  · by_cases h : s.pc.toNat + 2 < 4096
    · exact .inr (.inl ⟨rfl, h, by rw [skipIf_true, pcNext_of_lt h]; rfl⟩)
    · exact .inr (.inr ⟨rfl, by omega, by rw [skipIf_true, pcNext_of_ge (by omega)]; rfl⟩)

/-! ## Return stack -/

theorem push_of_lt {s : State} (w : Word) (h : s.sp.val < 15) :
    s.push w = .done ((s.setSp ⟨s.sp.val + 1, by omega⟩).setTop w) := by
  rw [State.push, dif_pos (show s.sp.val < Config.spMax from h)]

theorem push_of_full {s : State} (w : Word) (h : s.sp.val = 15) : s.push w = .raised (.stackOverflow s.sp) s := by
  rw [State.push, dif_neg (by simp only [Config.spMax]; omega)]

theorem pop_of_empty {s : State} (h : s.sp.val = 0) : s.pop = .error .stackUnderflow := by
  rw [State.pop, if_pos h]

theorem pop_of_pos {s : State} (h : s.sp.val ≠ 0) :
    s.pop = .ok (s.stack[s.sp.val], s.setSp ⟨s.sp.val - 1, by omega⟩) := by
  rw [State.pop, if_neg h]

/-! ## Memory -/

theorem readByte_of_lt {s : State} {a : Nat} (h : a < 4096) : s.readByte a = .ok (s.mem.read a) := by
  rw [State.readByte, if_pos h]

theorem readByte_of_ge {s : State} {a : Nat} (h : 4096 ≤ a) : s.readByte a = .error (.outOfBounds a) := by
  rw [State.readByte, if_neg (by simp only [Config.memSize]; omega)]

theorem writeByte_of_lt {s : State} {a : Nat} (b : Byte) (h : a < 4096) :
    s.writeByte a b = .done (s.setMem (s.mem.write a b)) := by
  rw [State.writeByte, if_pos h]

theorem writeByte_of_ge {s : State} {a : Nat} (b : Byte) (h : 4096 ≤ a) :
    s.writeByte a b = .raised (.outOfBounds a) s := by
  rw [State.writeByte, if_neg (by simp only [Config.memSize]; omega)]

/-- The fetch where both bytes exist. -/
theorem fetchWord_of_lt {s : State} (h : s.pc.toNat + 1 < 4096) :
    s.fetchWord = .ok (wordOfBytes (s.mem.read s.pc.toNat) (s.mem.read (s.pc.toNat + 1))) := by
  rw [State.fetchWord, readByte_of_lt (by omega), readByte_of_lt h]; rfl

/-- The fetch whose second byte does not exist. -/
theorem fetchWord_of_last {s : State} (h : s.pc.toNat = 4095) : s.fetchWord = .error (.outOfBounds 4096) := by
  rw [State.fetchWord, readByte_of_lt (by omega), readByte_of_ge (by omega), h]

/-- The fetch whose first byte does not exist. -/
theorem fetchWord_of_ge {s : State} (h : 4096 ≤ s.pc.toNat) : s.fetchWord = .error (.outOfBounds s.pc.toNat) := by
  rw [State.fetchWord, readByte_of_ge h]

/-- A block of stores that all exist: the bytes are written, nothing else changes. -/
theorem storeBytes_of_le (bs : List Byte) : ∀ {s : State} {a : Nat}, a + bs.length ≤ 4096 →
    s.storeBytes a bs = .done (s.setMem (s.mem.writeBytes a bs)) := by
  induction bs with
  | nil => intro s a _; rfl
  | cons b bs ih =>
    intro s a h
    simp only [List.length_cons] at h
    rw [State.storeBytes, writeByte_of_lt b (by omega)]
    exact ih (by omega)

/-- A block of stores that leaves memory: the bytes below 4096 are written, the first address outside is reported. -/
theorem storeBytes_of_gt (bs : List Byte) : ∀ {s : State} {a : Nat}, 4096 < a + bs.length → bs ≠ [] →
    s.storeBytes a bs
      = .raised (.outOfBounds (max a 4096)) (s.setMem (s.mem.writeBytes a (bs.take (4096 - a)))) := by
  induction bs with
  | nil => intro s a _ h; exact absurd rfl h
  | cons b bs ih =>
    intro s a h _
    simp only [List.length_cons] at h
    by_cases ha : a < 4096
    · have hne : bs ≠ [] := by
        intro e; subst e; simp only [List.length_nil] at h; omega
      rw [State.storeBytes, writeByte_of_lt b ha]
      show State.storeBytes _ (a + 1) bs = _
      rw [ih (by omega) hne, show 4096 - a = (4096 - (a + 1)) + 1 by omega, List.take_succ_cons,
        show max (a + 1) 4096 = max a 4096 by omega]
      rfl
    · rw [State.storeBytes, writeByte_of_ge b (by omega), show 4096 - a = 0 by omega, show max a 4096 = a by omega]
      rfl

/-- Everything a block of stores can do: memory is the only state written and keeps its canonical form; if it raises, the
fault is OutOfBounds at the first address outside memory. -/
theorem storeBytes_cases (bs : List Byte) (a : Nat) (s : State) :
    (∃ m, s.storeBytes a bs = .done (s.setMem m) ∧ (s.mem.wf = true → m.wf = true)) ∨
    (∃ m, s.storeBytes a bs = .raised (.outOfBounds (max a 4096)) (s.setMem m) ∧ (s.mem.wf = true → m.wf = true)) := by
  by_cases h : a + bs.length ≤ 4096
  · exact .inl ⟨_, storeBytes_of_le bs h, fun hw => wf_writeBytes _ hw h⟩
  · by_cases he : bs = []
    · subst he; exact .inl ⟨s.mem, rfl, id⟩
    · refine .inr ⟨_, storeBytes_of_gt bs (by omega) he, fun hw => ?_⟩
      by_cases ha : a ≤ 4096
      · exact wf_writeBytes _ hw (by simp; omega)
      · rw [show 4096 - a = 0 by omega]; exact hw

theorem nibble_ofNat_toNat (r : Nibble) : BitVec.ofNat 4 r.toNat = r := by simp

/-- A block of loads that all exist: registers `V[j]` to `V[j + n - 1]` are loaded, nothing else changes. -/
theorem loadRegsFrom_of_le (n : Nat) : ∀ {s : State} {a j : Nat}, a + n ≤ 4096 → j + n ≤ 16 →
    ∃ t, s.loadRegsFrom a j n = .done t ∧ t = { s with v := t.v } ∧
      ∀ r : Nibble, t.reg r = if j ≤ r.toNat ∧ r.toNat < j + n then s.mem.read (a + (r.toNat - j)) else s.reg r := by
  induction n with
  | zero => intro s a j _ _; exact ⟨s, rfl, rfl, fun r => by rw [if_neg (by omega)]⟩
  | succ n ih =>
    intro s a j ha hj
    obtain ⟨t, h1, h2, h3⟩ :=
      ih (s := s.setReg (BitVec.ofNat 4 j) (s.mem.read a)) (a := a + 1) (j := j + 1) (by omega) (by omega)
    refine ⟨t, ?_, ?_, fun r => ?_⟩
    · rw [State.loadRegsFrom, readByte_of_lt (by omega)]; exact h1
    · rw [h2]; rfl
    · rw [h3, reg_setReg]
      have hr : r = BitVec.ofNat 4 j ↔ r.toNat = j := by
        rw [← BitVec.toNat_inj, BitVec.toNat_ofNat, Nat.mod_eq_of_lt (by omega)]
      by_cases h : r.toNat = j
      · rw [if_neg (by omega), if_pos (hr.2 h), if_pos (by omega), h, Nat.sub_self]; rfl
      · rw [if_neg (fun e => h (hr.1 e))]
        by_cases hb : j + 1 ≤ r.toNat ∧ r.toNat < j + 1 + n
        · rw [if_pos hb, if_pos (by omega), show a + 1 + (r.toNat - (j + 1)) = a + (r.toNat - j) by omega]; rfl
        · rw [if_neg hb, if_neg (by omega)]

/-- A block of loads that leaves memory: the registers whose byte exists are loaded. -/
theorem loadRegsFrom_of_gt (n : Nat) : ∀ {s : State} {a j : Nat}, 4096 < a + n → 0 < n → j + n ≤ 16 →
    ∃ t, s.loadRegsFrom a j n = .raised (.outOfBounds (max a 4096)) t ∧ t = { s with v := t.v } ∧
      ∀ r : Nibble, t.reg r =
        if j ≤ r.toNat ∧ r.toNat < j + n ∧ a + (r.toNat - j) < 4096 then s.mem.read (a + (r.toNat - j)) else s.reg r := by
  induction n with
  | zero => intro s a j _ h; exact absurd h (by omega)
  | succ n ih =>
    intro s a j ha _ hj
    by_cases hlt : a < 4096
    · obtain ⟨t, h1, h2, h3⟩ :=
        ih (s := s.setReg (BitVec.ofNat 4 j) (s.mem.read a)) (a := a + 1) (j := j + 1) (by omega) (by omega) (by omega)
      refine ⟨t, ?_, ?_, fun r => ?_⟩
      · rw [State.loadRegsFrom, readByte_of_lt hlt, show max a 4096 = max (a + 1) 4096 by omega]; exact h1
      · rw [h2]; rfl
      · rw [h3, reg_setReg]
        have hr : r = BitVec.ofNat 4 j ↔ r.toNat = j := by
          rw [← BitVec.toNat_inj, BitVec.toNat_ofNat, Nat.mod_eq_of_lt (by omega)]
        by_cases h : r.toNat = j
        · rw [if_neg (by omega), if_pos (hr.2 h), if_pos (by omega), h, Nat.sub_self]; rfl
        · rw [if_neg (fun e => h (hr.1 e))]
          by_cases hb : j + 1 ≤ r.toNat ∧ r.toNat < j + 1 + n ∧ a + 1 + (r.toNat - (j + 1)) < 4096
          · rw [if_pos hb, if_pos (by omega), show a + 1 + (r.toNat - (j + 1)) = a + (r.toNat - j) by omega]; rfl
          · rw [if_neg hb, if_neg (by omega)]
    · exact ⟨s, by rw [State.loadRegsFrom, readByte_of_ge (by omega), show max a 4096 = a by omega], rfl,
        fun r => by rw [if_neg (by omega)]⟩

/-! ## Framebuffer -/

@[simp] theorem pixel_clear (y x : Nat) : FrameBuffer.clear.pixel y x = false := by
  simp [FrameBuffer.clear, FrameBuffer.pixel]

/-- One pixel after another was toggled. -/
theorem pixel_toggle (fb : FrameBuffer) (y x y' x' : Nat) :
    (fb.toggle y x).pixel y' x' = (fb.pixel y' x' ^^ (decide (y' % 32 = y % 32) && decide (x' % 64 = x % 64))) := by
  unfold FrameBuffer.toggle FrameBuffer.pixel
  simp only [Vector.getElem_set]
  by_cases hy : y % 32 = y' % 32
  · by_cases hx : x % 64 = x' % 64
    · simp [hy, hx]
    · simp [hy, hx, Ne.symm hx]
  · simp [hy, Ne.symm hy]

/-- The framebuffer is determined by its pixels. -/
theorem fb_ext {f g : FrameBuffer} (h : ∀ y < 32, ∀ x < 64, f.pixel y x = g.pixel y x) : f = g := by
  apply Vector.ext; intro y hy
  apply Vector.ext; intro x hx
  have := h y hy x hx
  simpa [FrameBuffer.pixel, Nat.mod_eq_of_lt hy, Nat.mod_eq_of_lt hx] using this

/-- Everything a run of columns of one row does to a pixel: it toggles where some column lands there with a 1 bit. -/
theorem blitColumns_pixel (vx y : Nat) (row : Byte) (y' x' : Nat) : ∀ (cs : List Nat), cs.Nodup → (∀ c ∈ cs, c < 8) →
    ∀ p : FrameBuffer × Bool,
      (cs.foldl (blitColumn vx y row) p).1.pixel y' x' =
        (p.1.pixel y' x' ^^
          (decide (y' % 32 = y % 32) && cs.any fun c => decide (x' % 64 = (vx + c) % 64) && spriteBit row c)) := by
  intro cs
  induction cs with
  | nil => intro _ _ p; simp
  | cons c cs ih =>
    intro hn hc p
    have hn' := List.nodup_cons.1 hn
    rw [List.foldl_cons, ih hn'.2 (fun d hd => hc d (List.mem_cons_of_mem _ hd)), List.any_cons]
    have hrest : x' % 64 = (vx + c) % 64 →
        (cs.any fun d => decide (x' % 64 = (vx + d) % 64) && spriteBit row d) = false := by
      intro hx
      rw [List.any_eq_false]
      intro d hd
      have h1 := hc d (List.mem_cons_of_mem _ hd)
      have h2 := hc c (List.mem_cons_self ..)
      have h3 : d ≠ c := fun e => hn'.1 (e ▸ hd)
      have : ¬ x' % 64 = (vx + d) % 64 := by omega
      simp [this]
    unfold blitColumn
    by_cases hb : spriteBit row c = true
    · rw [if_pos hb, pixel_toggle]
      by_cases hx : x' % 64 = (vx + c) % 64
      · simp [hx] at hrest ⊢; simp [hb]; grind
      · simp [hx]
    · rw [if_neg hb]; simp [hb]

/-- The collision bit after a run of columns of one row: some column with a 1 bit found its pixel lit. -/
theorem blitColumns_hit (vx y : Nat) (row : Byte) : ∀ (cs : List Nat), cs.Nodup → (∀ c ∈ cs, c < 8) →
    ∀ p : FrameBuffer × Bool,
      (cs.foldl (blitColumn vx y row) p).2 = (p.2 || cs.any fun c => spriteBit row c && p.1.pixel y (vx + c)) := by
  intro cs
  induction cs with
  | nil => intro _ _ p; simp
  | cons c cs ih =>
    intro hn hc p
    have hn' := List.nodup_cons.1 hn
    rw [List.foldl_cons, ih hn'.2 (fun d hd => hc d (List.mem_cons_of_mem _ hd)), List.any_cons]
    have hrest : ∀ d ∈ cs, (blitColumn vx y row p c).1.pixel y (vx + d) = p.1.pixel y (vx + d) := by
      intro d hd
      have h1 := hc d (List.mem_cons_of_mem _ hd)
      have h2 := hc c (List.mem_cons_self ..)
      have h3 : d ≠ c := fun e => hn'.1 (e ▸ hd)
      have h4 : ¬ (vx + d) % 64 = (vx + c) % 64 := by omega
      unfold blitColumn
      split
      · rw [pixel_toggle]; simp [h4]
      · rfl
    have hany : (cs.any fun d => spriteBit row d && (blitColumn vx y row p c).1.pixel y (vx + d))
        = cs.any fun d => spriteBit row d && p.1.pixel y (vx + d) := by
      rw [Bool.eq_iff_iff]
      simp only [List.any_eq_true]
      exact exists_congr fun d => and_congr_right fun hd => by rw [hrest d hd]
    rw [hany]
    unfold blitColumn
    split
    · rename_i hb; simp [hb, Bool.or_assoc]
    · rename_i hb; simp [hb]

/-- Everything one row of a blit does to a pixel. -/
theorem blitRow_pixel (vx y : Nat) (row : Byte) (p : FrameBuffer × Bool) (y' x' : Nat) :
    (blitRow vx y row p).1.pixel y' x' =
      (p.1.pixel y' x' ^^
        (decide (y' % 32 = y % 32) && (List.range 8).any fun c => decide (x' % 64 = (vx + c) % 64) && spriteBit row c)) :=
  blitColumns_pixel vx y row y' x' _ (by decide) (by decide) p

/-- The collision bit after one row of a blit. -/
theorem blitRow_hit (vx y : Nat) (row : Byte) (p : FrameBuffer × Bool) :
    (blitRow vx y row p).2 = (p.2 || (List.range 8).any fun c => spriteBit row c && p.1.pixel y (vx + c)) :=
  blitColumns_hit vx y row _ (by decide) (by decide) p

/-- Everything a blit of `n` rows can do: it ends with `VF`, the framebuffer and the draw flag as the only state written, or
it raises OutOfBounds at an address of its own rows with the framebuffer as the only state written. -/
theorem blitRows_cases (vx vy : Nat) : ∀ (n r : Nat) (coll : Bool) (s : State),
    (∃ t, blitRows vx vy n r coll s = .done t ∧ t = { s with v := t.v, fb := t.fb, draw := t.draw } ∧
      ∀ q, q ≠ vfIdx → t.reg q = s.reg q) ∨
    (∃ t a, blitRows vx vy n r coll s = .raised (.outOfBounds a) t ∧ t = { s with fb := t.fb } ∧
      4096 ≤ a ∧ a < s.i.toNat + r + n) := by
  intro n
  induction n with
  | zero =>
    intro r coll s
    refine .inl ⟨_, rfl, rfl, fun q hq => ?_⟩
    show ((s.setReg vfIdx _).setDraw).reg q = _
    simp [hq]
  | succ n ih =>
    intro r coll s
    simp only [blitRows]
    by_cases h : s.effAddr r < 4096
    · rw [readByte_of_lt h]
      rcases ih (r + 1) (blitRow vx (vy + r) (s.mem.read (s.effAddr r)) (s.fb, coll)).2
        (s.setFb (blitRow vx (vy + r) (s.mem.read (s.effAddr r)) (s.fb, coll)).1) with
        ⟨t, h1, h2, h3⟩ | ⟨t, a, h1, h2, h3, h4⟩
      · exact .inl ⟨t, h1, by rw [h2]; rfl, h3⟩
      · exact .inr ⟨t, a, h1, by rw [h2]; rfl, h3, by simp at h4; omega⟩
    · rw [readByte_of_ge (by omega)]
      exact .inr ⟨s, _, rfl, rfl, by omega, by simp only [State.effAddr]; omega⟩

/-! ## Keys -/

/-- The key flags of states with the same `K`. -/
theorem key_of_k {s t : State} (h : t.k = s.k) (j : Nat) : t.key j = s.key j := by unfold State.key; rw [h]

/-- A key flag of the sample (R91). -/
theorem key_sampleKeys (s : State) (j : Nat) (h : j < 16) : s.sampleKeys.key j = s.inputs.keyIn.getLsbD j := by
  unfold State.key State.sampleKeys keysOf
  interval_cases j <;> rfl

/-- The least held key (R182). -/
theorem lowestKey_eq_some {s : State} {j : Nat} :
    s.lowestKey = some j ↔ j < 16 ∧ s.key j = true ∧ ∀ l < j, s.key l = false := by
  unfold State.lowestKey
  rw [List.findIdx?_eq_some_iff_getElem]
  simp only [State.key, List.getD_eq_getElem?_getD]
  constructor
  · rintro ⟨h, h1, h2⟩
    simp only [Vector.length_toList] at h
    refine ⟨h, by simpa [h] using h1, fun l hl => ?_⟩
    have := h2 l hl
    simpa [show l < 16 by omega] using this
  · rintro ⟨h, h1, h2⟩
    refine ⟨by simpa using h, by simpa [h] using h1, fun l hl => ?_⟩
    have := h2 l hl
    simpa [show l < 16 by omega] using this

/-- No key is held. -/
theorem lowestKey_eq_none {s : State} : s.lowestKey = none ↔ ∀ j < 16, s.key j = false := by
  unfold State.lowestKey
  rw [List.findIdx?_eq_none_iff]
  simp only [State.key, List.getD_eq_getElem?_getD]
  constructor
  · intro h j hj
    have := h (s.k[j]) (by simp)
    simpa [hj] using this
  · intro h b hb
    obtain ⟨j, hj, rfl⟩ := List.getElem_of_mem hb
    simp only [Vector.length_toList] at hj
    have := h j hj
    simpa [hj] using this

end Sys2Proof.Machine
end

