-- ==== Sys2Proof/Laws/HostCommands.lean ====
section
/-! SUPPORT. What each command of the host does, one lemma per branch of it. -/

namespace Sys2Proof.Machine

variable {s : State}

/-! ## `Initialize` (R241) -/

/-- Outside the bytes of `FONT`, memory with nothing written reads 0x00 (R55). -/
theorem initialByte_of_ge {a : Nat} (h : 80 ≤ a) : initialByte a = 0x00#8 := by
  rw [initialByte, if_pos (Nat.zero_le a)]
  exact List.getD_eq_default _ _ (show defaultFont.length ≤ a from h)

/-- Every byte of the loaded memory (R55): the ROM, the font, else 0x00. -/
theorem read_loadedMemory (font : Vector Byte 80) (rom : List Byte) (a : Nat) :
    (loadedMemory font rom).read a =
      if 0x200 ≤ a ∧ a < 0x200 + rom.length then rom.getD (a - 0x200) 0x00#8
      else if a < 80 then font.toList.getD a 0x00#8 else 0x00#8 := by
  rw [loadedMemory, read_writeBytes, read_writeBytes]
  by_cases h : a < 80
  · simp [h]
  · simp [h, Memory.read, initialByte_of_ge (Nat.not_lt.1 h)]

/-- The loaded memory is in canonical form where the ROM fits. -/
theorem wf_loadedMemory (font : Vector Byte 80) {rom : List Byte} (h : rom.length ≤ 3584) :
    (loadedMemory font rom).wf = true :=
  wf_writeBytes rom (wf_writeBytes font.toList rfl (by simp)) (by simp; omega)

theorem hostInitialize_of_running {rom : List Byte} (h : s.running = true) :
    hostInitialize rom s = s.answer .refused := if_pos h

theorem hostInitialize_of_gt {rom : List Byte} (h : s.running = false) (hl : 3584 < rom.length) :
    hostInitialize rom s = s.answer (.failed (.invalidRom rom.length)) :=
  (if_neg (by rw [h]; decide)).trans (if_pos hl)

theorem hostInitialize_of_le {rom : List Byte} (h : s.running = false) (hl : rom.length ≤ 3584) :
    hostInitialize rom s = { State.reset with
      mem := loadedMemory s.font rom
      callmc := s.callmc
      font := s.font
      script := s.script
      ticks := s.ticks
      reply := some .done } :=
  (if_neg (by rw [h]; decide)).trans (if_neg (Nat.not_lt.2 hl))

/-! ## `Start` (R244) -/

theorem hostStart_of_running (h : s.running = true) : hostStart s = s.answer (.failed .alreadyRunning) := if_pos h

theorem hostStart_of_fault (h : s.running = false) (hf : s.fault ≠ none) : hostStart s = s.answer .refused :=
  (if_neg (by rw [h]; decide)).trans (if_pos (Option.isSome_iff_ne_none.2 hf))

theorem hostStart_of_uninitialized (h : s.running = false) (hi : s.initialized = false) :
    hostStart s = s.answer .refused := by
  unfold hostStart
  rw [if_neg (by rw [h]; decide)]
  split
  · rfl
  · rw [if_pos (by rw [hi]; rfl)]

theorem hostStart_of_ok (h : s.running = false) (hf : s.fault = none) (hi : s.initialized = true) :
    hostStart s = { s.begin with out := s.out ++ [.started], reply := some .done } := by
  unfold hostStart
  rw [if_neg (by rw [h]; decide), if_neg (by rw [hf]; decide), if_neg (by rw [hi]; decide)]

/-! ## `Stop` (R246) -/

theorem hostStop_of_running (h : s.running = true) :
    hostStop s = { s with running := false, out := s.out ++ [.stopped], reply := some .done } := if_pos h

theorem hostStop_of_stopped (h : s.running = false) : hostStop s = s.answer (.failed .alreadyStopped) :=
  if_neg (by rw [h]; decide)

/-! ## `load` (R248) -/

theorem hostLoad_of_running {bs : List Byte} {a : Nat} (h : s.running = true) : hostLoad bs a s = s.answer .refused :=
  if_pos h

theorem hostLoad_of_gt {bs : List Byte} {a : Nat} (h : s.running = false) (hl : 4096 < a + bs.length) :
    hostLoad bs a s = s.answer (.failed (.outOfBounds (max a 4096))) :=
  (if_neg (by rw [h]; decide)).trans (if_pos hl)

theorem hostLoad_of_le {bs : List Byte} {a : Nat} (h : s.running = false) (hl : a + bs.length ≤ 4096) :
    hostLoad bs a s = { s with mem := s.mem.writeBytes a bs, reply := some .done } :=
  (if_neg (by rw [h]; decide)).trans (if_neg (Nat.not_lt.2 hl))

/-! ## `setKeyState` (R249) -/

theorem hostSetKeyState_of_running {j : Nat} {b : Bool} (h : s.running = true) :
    hostSetKeyState j b s = s.answer .refused := if_pos h

theorem hostSetKeyState_of_ge {j : Nat} {b : Bool} (hj : 16 ≤ j) : hostSetKeyState j b s = s.answer .refused := by
  unfold hostSetKeyState
  split
  · rfl
  · rw [dif_neg (by omega)]

theorem hostSetKeyState_of_lt {j : Nat} {b : Bool} (h : s.running = false) (hj : j < 16) :
    hostSetKeyState j b s = { s with k := s.k.set j b hj, draw := true, reply := some .done } :=
  (if_neg (by rw [h]; decide)).trans (dif_pos hj)

end Sys2Proof.Machine
end

