-- ==== Sys2Proof/Laws/PerInstr.lean ====
section
/-! SUPPORT. Per instruction: the encoder writes the fixed bits of the instruction's row of the opcode table
(spec/30_encoding.md R74, columns mask and match). -/

namespace Sys2Proof.Laws.Matches

/-- The fixed bits of the word of `i` are its row's. -/
def Statement (i : Instr) : Prop := encode i &&& i.mask = i.matchBits

/-! The three masks of the table keep the fields their formats fix. -/

theorem and_F000 (op : Word) : op &&& 0xF000#16 = encAddr (opSeg op) 0x000#12 := by
  apply BitVec.eq_of_getLsbD_eq
  intro j hj
  have e : (encAddr (opSeg op) 0x000#12).getLsbD j
      = if j < 12 then (0x000#12).getLsbD j else (opSeg op).getLsbD (j - 12) := BitVec.getLsbD_append
  rw [e, BitVec.getLsbD_and]
  interval_cases j <;> simp [opSeg]

theorem and_F0FF (op : Word) : op &&& 0xF0FF#16 = encXNN (opSeg op) 0x0#4 (opNN op) := by
  apply BitVec.eq_of_getLsbD_eq
  intro j hj
  have e : (encXNN (opSeg op) 0x0#4 (opNN op)).getLsbD j
      = if j < 8 then (opNN op).getLsbD j else (opSeg op ++ 0x0#4).getLsbD (j - 8) := BitVec.getLsbD_append
  rw [e, BitVec.getLsbD_and, BitVec.getLsbD_append]
  interval_cases j <;> simp [opSeg, opNN]

theorem and_F00F (op : Word) : op &&& 0xF00F#16 = encXYN (opSeg op) 0x0#4 0x0#4 (opN op) := by
  apply BitVec.eq_of_getLsbD_eq
  intro j hj
  have e : (encXYN (opSeg op) 0x0#4 0x0#4 (opN op)).getLsbD j
      = if j < 4 then (opN op).getLsbD j else (opSeg op ++ 0x0#4 ++ 0x0#4).getLsbD (j - 4) := BitVec.getLsbD_append
  rw [e, BitVec.getLsbD_and, BitVec.getLsbD_append, BitVec.getLsbD_append]
  interval_cases j <;> simp [opSeg, opN]

/-! What a mask leaves of a word of each format. -/

theorem addr_and_F000 (g : Nibble) (nnn : Addr) : encAddr g nnn &&& 0xF000#16 = encAddr g 0x000#12 := by
  rw [and_F000, opSeg_encAddr]
theorem xnn_and_F000 (g x : Nibble) (nn : Byte) : encXNN g x nn &&& 0xF000#16 = encAddr g 0x000#12 := by
  rw [and_F000, opSeg_encXNN]
theorem xyn_and_F000 (g x y n : Nibble) : encXYN g x y n &&& 0xF000#16 = encAddr g 0x000#12 := by
  rw [and_F000, opSeg_encXYN]
theorem xnn_and_F0FF (g x : Nibble) (nn : Byte) : encXNN g x nn &&& 0xF0FF#16 = encXNN g 0x0#4 nn := by
  rw [and_F0FF, opSeg_encXNN, opNN_encXNN]
theorem xyn_and_F00F (g x y n : Nibble) : encXYN g x y n &&& 0xF00F#16 = encXYN g 0x0#4 0x0#4 n := by
  rw [and_F00F, opSeg_encXYN, opN_encXYN]

/-! One lemma per constructor. -/

theorem clearScreen : Statement (.clearScreen) := by unfold Statement; decide
theorem ret : Statement (.ret) := by unfold Statement; decide
theorem callMachineCode (nnn : Addr) : Statement (.callMachineCode nnn) :=
  (addr_and_F000 _ _).trans rfl
theorem jump (nnn : Addr) : Statement (.jump nnn) :=
  (addr_and_F000 _ _).trans rfl
theorem callSubroutine (nnn : Addr) : Statement (.callSubroutine nnn) :=
  (addr_and_F000 _ _).trans rfl
theorem skipIfEqualValue (x : Nibble) (nn : Byte) : Statement (.skipIfEqualValue x nn) :=
  (xnn_and_F000 _ _ _).trans rfl
theorem skipIfNotEqualValue (x : Nibble) (nn : Byte) : Statement (.skipIfNotEqualValue x nn) :=
  (xnn_and_F000 _ _ _).trans rfl
theorem skipIfEqualRegister (x y : Nibble) : Statement (.skipIfEqualRegister x y) :=
  (xyn_and_F000 _ _ _ _).trans rfl
theorem loadValue (x : Nibble) (nn : Byte) : Statement (.loadValue x nn) :=
  (xnn_and_F000 _ _ _).trans rfl
theorem addValue (x : Nibble) (nn : Byte) : Statement (.addValue x nn) :=
  (xnn_and_F000 _ _ _).trans rfl
theorem loadRegister (x y : Nibble) : Statement (.loadRegister x y) :=
  (xyn_and_F00F _ _ _ _).trans rfl
theorem or (x y : Nibble) : Statement (.or x y) :=
  (xyn_and_F00F _ _ _ _).trans rfl
theorem and (x y : Nibble) : Statement (.and x y) :=
  (xyn_and_F00F _ _ _ _).trans rfl
theorem xor (x y : Nibble) : Statement (.xor x y) :=
  (xyn_and_F00F _ _ _ _).trans rfl
theorem addRegisters (x y : Nibble) : Statement (.addRegisters x y) :=
  (xyn_and_F00F _ _ _ _).trans rfl
theorem subtractRegisters (x y : Nibble) : Statement (.subtractRegisters x y) :=
  (xyn_and_F00F _ _ _ _).trans rfl
theorem shiftRight (x : Nibble) : Statement (.shiftRight x) :=
  (xyn_and_F00F _ _ _ _).trans rfl
theorem reverseSubtract (x y : Nibble) : Statement (.reverseSubtract x y) :=
  (xyn_and_F00F _ _ _ _).trans rfl
theorem shiftLeft (x : Nibble) : Statement (.shiftLeft x) :=
  (xyn_and_F00F _ _ _ _).trans rfl
theorem skipIfNotEqualRegister (x y : Nibble) : Statement (.skipIfNotEqualRegister x y) :=
  (xyn_and_F000 _ _ _ _).trans rfl
theorem loadIndex (nnn : Addr) : Statement (.loadIndex nnn) :=
  (addr_and_F000 _ _).trans rfl
theorem jumpPlusV0 (nnn : Addr) : Statement (.jumpPlusV0 nnn) :=
  (addr_and_F000 _ _).trans rfl
theorem randomAnd (x : Nibble) (nn : Byte) : Statement (.randomAnd x nn) :=
  (xnn_and_F000 _ _ _).trans rfl
theorem drawSprite (x y n : Nibble) : Statement (.drawSprite x y n) :=
  (xyn_and_F000 _ _ _ _).trans rfl
theorem skipIfKeyPressed (x : Nibble) : Statement (.skipIfKeyPressed x) :=
  (xnn_and_F0FF _ _ _).trans rfl
theorem skipIfKeyNotPressed (x : Nibble) : Statement (.skipIfKeyNotPressed x) :=
  (xnn_and_F0FF _ _ _).trans rfl
theorem loadDelayTimer (x : Nibble) : Statement (.loadDelayTimer x) :=
  (xnn_and_F0FF _ _ _).trans rfl
theorem waitForKey (x : Nibble) : Statement (.waitForKey x) :=
  (xnn_and_F0FF _ _ _).trans rfl
theorem setDelayTimer (x : Nibble) : Statement (.setDelayTimer x) :=
  (xnn_and_F0FF _ _ _).trans rfl
theorem setSoundTimer (x : Nibble) : Statement (.setSoundTimer x) :=
  (xnn_and_F0FF _ _ _).trans rfl
theorem addToIndex (x : Nibble) : Statement (.addToIndex x) :=
  (xnn_and_F0FF _ _ _).trans rfl
theorem loadSpriteLocation (x : Nibble) : Statement (.loadSpriteLocation x) :=
  (xnn_and_F0FF _ _ _).trans rfl
theorem storeBCD (x : Nibble) : Statement (.storeBCD x) :=
  (xnn_and_F0FF _ _ _).trans rfl
theorem storeRegisters (x : Nibble) : Statement (.storeRegisters x) :=
  (xnn_and_F0FF _ _ _).trans rfl
theorem loadRegisters (x : Nibble) : Statement (.loadRegisters x) :=
  (xnn_and_F0FF _ _ _).trans rfl

end Sys2Proof.Laws.Matches
end

