-- ==== Sys2Proof/Laws/Step.lean ====
section
/-! SUPPORT. What an instruction, a cycle and a step can do: the inversion lemmas every claim about a step starts from. -/

namespace Sys2Proof.Machine

/-- The executor always answers a next state: an instruction's fault is taken (R214), none stops the model. -/
theorem exec_next (i : Instr) (s : State) : ∃ t, exec i s = .next t := by
  cases i <;> exact ⟨_, rfl⟩

/-! ## The end of a cycle (R96 to R101) -/

/-- The end of a cycle changes no state but the timers, the draw flag and the outputs. -/
theorem endCycle_keeps (s : State) :
    s.endCycle = { s with dt := s.endCycle.dt, st := s.endCycle.st, draw := s.endCycle.draw, out := s.endCycle.out } := by
  unfold State.endCycle
  split
  · rfl
  · unfold State.notify; split <;> unfold State.tickTimers State.soundBeep <;> dsimp only <;> split <;> rfl

@[simp] theorem endCycle_v (s : State) : s.endCycle.v = s.v := by rw [endCycle_keeps]
@[simp] theorem endCycle_pc (s : State) : s.endCycle.pc = s.pc := by rw [endCycle_keeps]
@[simp] theorem endCycle_i (s : State) : s.endCycle.i = s.i := by rw [endCycle_keeps]
@[simp] theorem endCycle_stack (s : State) : s.endCycle.stack = s.stack := by rw [endCycle_keeps]
@[simp] theorem endCycle_sp (s : State) : s.endCycle.sp = s.sp := by rw [endCycle_keeps]
@[simp] theorem endCycle_fb (s : State) : s.endCycle.fb = s.fb := by rw [endCycle_keeps]
@[simp] theorem endCycle_k (s : State) : s.endCycle.k = s.k := by rw [endCycle_keeps]
@[simp] theorem endCycle_running (s : State) : s.endCycle.running = s.running := by rw [endCycle_keeps]
@[simp] theorem endCycle_started (s : State) : s.endCycle.started = s.started := by rw [endCycle_keeps]
@[simp] theorem endCycle_fault (s : State) : s.endCycle.fault = s.fault := by rw [endCycle_keeps]
@[simp] theorem endCycle_mem (s : State) : s.endCycle.mem = s.mem := by rw [endCycle_keeps]
@[simp] theorem endCycle_initialized (s : State) : s.endCycle.initialized = s.initialized := by rw [endCycle_keeps]
@[simp] theorem endCycle_callmc (s : State) : s.endCycle.callmc = s.callmc := by rw [endCycle_keeps]
@[simp] theorem endCycle_font (s : State) : s.endCycle.font = s.font := by rw [endCycle_keeps]
@[simp] theorem endCycle_script (s : State) : s.endCycle.script = s.script := by rw [endCycle_keeps]
@[simp] theorem endCycle_ticks (s : State) : s.endCycle.ticks = s.ticks := by rw [endCycle_keeps]
@[simp] theorem endCycle_reply (s : State) : s.endCycle.reply = s.reply := by rw [endCycle_keeps]

/-- One timer's countdown as a number (R100). -/
theorem toNat_tickTimer (b : Byte) : (tickTimer b).toNat = b.toNat - 1 := by
  unfold tickTimer
  split
  · rw [BitVec.toNat_sub]; simp; omega
  · omega

/-! ## The cycle -/

/-- A cycle whose instruction cannot be fetched: the key sample stays, `pc` does not move (R92, R96). -/
theorem cycle_of_outOfBounds {s : State} (h : 4095 ≤ s.pc.toNat) :
    cycle s = .next (takeFault (.outOfBounds (max s.pc.toNat 4096)) s.sampleKeys) := by
  by_cases h' : s.pc.toNat = 4095
  · rw [cycle, fetchAndExecute, fetchWord_of_last (by simpa using h'), h']; rfl
  · rw [cycle, fetchAndExecute, fetchWord_of_ge (by rw [sampleKeys_pc]; omega), sampleKeys_pc,
      show max s.pc.toNat 4096 = s.pc.toNat by omega]

/-- A cycle at 4094: the bytes are read, `Next()` faults (R93). -/
theorem cycle_of_overflow {s : State} (h : s.pc.toNat = 4094) :
    cycle s = .next (takeFault (.programCounterOverflow s.pc) s.sampleKeys) := by
  rw [cycle, fetchAndExecute, fetchWord_of_lt (by rw [sampleKeys_pc]; omega)]
  show (match s.sampleKeys.pcNext with | .raised f t => _ | .done t => _) = _
  rw [pcNext_of_ge (by rw [sampleKeys_pc]; omega)]
  rfl

/-- A cycle at 4093 or below: the word at `pc` is decoded with `pc` advanced. -/
theorem cycle_of_le {s : State} (h : s.pc.toNat ≤ 4093) :
    cycle s = decodeAndExecute (wordOfBytes (s.mem.read s.pc.toNat) (s.mem.read (s.pc.toNat + 1)))
      (s.sampleKeys.setPc (s.pc + 2#16)) := by
  rw [cycle, fetchAndExecute, fetchWord_of_lt (by rw [sampleKeys_pc]; omega)]
  show (match s.sampleKeys.pcNext with | .raised f t => _ | .done t => _) = _
  rw [pcNext_of_lt (by rw [sampleKeys_pc]; omega)]
  rfl

/-- Everything a cycle can do. -/
theorem cycle_cases (s : State) :
    (4095 ≤ s.pc.toNat ∧ cycle s = .next (takeFault (.outOfBounds (max s.pc.toNat 4096)) s.sampleKeys)) ∨
    (s.pc.toNat = 4094 ∧ cycle s = .next (takeFault (.programCounterOverflow s.pc) s.sampleKeys)) ∨
    (s.pc.toNat ≤ 4093 ∧ ∃ op u, op = wordOfBytes (s.mem.read s.pc.toNat) (s.mem.read (s.pc.toNat + 1)) ∧
      u = (s.sampleKeys.setPc (s.pc + 2#16)) ∧
      ((∃ e, decode op = .error e ∧ cycle s = .next (takeFault (.unknownOpcode op u.pc) u)) ∨
       (∃ i t, decode op = .ok i ∧ exec i u = .next t ∧ cycle s = .next t.endCycle))) := by
  by_cases h1 : 4095 ≤ s.pc.toNat
  · exact .inl ⟨h1, cycle_of_outOfBounds h1⟩
  by_cases h2 : s.pc.toNat = 4094
  · exact .inr (.inl ⟨h2, cycle_of_overflow h2⟩)
  have h3 : s.pc.toNat ≤ 4093 := by omega
  refine .inr (.inr ⟨h3, _, _, rfl, rfl, ?_⟩)
  rw [cycle_of_le h3, decodeAndExecute]
  cases hd : decode (wordOfBytes (s.mem.read s.pc.toNat) (s.mem.read (s.pc.toNat + 1))) with
  | error e => exact .inl ⟨e, rfl, rfl⟩
  | ok i =>
    obtain ⟨t, ht⟩ := exec_next i (s.sampleKeys.setPc (s.pc + 2#16))
    refine .inr ⟨i, t, rfl, ht, ?_⟩
    show closeCycle (exec i _) = _
    rw [ht]; rfl

/-! ## The step -/

/-- A step that serves a host command. -/
theorem step_of_command {s : State} {c : HostCommand} (h : s.inputs.command = some c) :
    step s = .next (serveCommand c s.clearOutputs).advanceInputs := by
  rw [step, stepOnce, clearOutputs_inputs, h]; rfl

/-- A step of a core that takes a cycle. -/
theorem step_of_cycle {s : State} (hr : s.running = true) (hf : s.fault = none) (hc : s.inputs.command = none) :
    step s = advanceOutcome (cycle s.clearOutputs) := by
  rw [step, stepOnce, clearOutputs_inputs, hc]
  simp [coreStep, hf, hr]

/-- A stopped core takes no step. -/
theorem step_of_stopped {s : State} (hr : s.running = false) (hf : s.fault = none) (hc : s.inputs.command = none) :
    step s = .fault .coreStopped := by
  rw [step, stepOnce, clearOutputs_inputs, hc]
  simp [coreStep, hf, hr, advanceOutcome]

/-- A faulted core takes no step. -/
theorem step_of_faulted {s : State} {f : CoreFault} (hf : s.fault = some f) (hc : s.inputs.command = none) :
    step s = .fault (.coreFaulted f) := by
  rw [step, stepOnce, clearOutputs_inputs, hc]
  simp [coreStep, hf, advanceOutcome]

/-- Everything a step that answers a next state can be: a host command served, or one cycle. -/
theorem step_next_cases {s t : State} (h : step s = .next t) :
    (∃ c, s.inputs.command = some c ∧ t = (serveCommand c s.clearOutputs).advanceInputs) ∨
    (s.running = true ∧ s.fault = none ∧ s.inputs.command = none ∧
      ∃ u, cycle s.clearOutputs = .next u ∧ t = u.advanceInputs) := by
  cases hc : s.inputs.command with
  | some c => rw [step_of_command hc] at h; exact .inl ⟨c, rfl, by injection h with h; exact h.symm⟩
  | none =>
    cases hf : s.fault with
    | some f => rw [step_of_faulted hf hc] at h; exact absurd h (by simp)
    | none =>
      cases hr : s.running with
      | false => rw [step_of_stopped hr hf hc] at h; exact absurd h (by simp)
      | true =>
        rw [step_of_cycle hr hf hc] at h
        refine .inr ⟨rfl, rfl, rfl, ?_⟩
        cases hy : cycle s.clearOutputs with
        | next u => rw [hy] at h; exact ⟨u, rfl, by injection h with h; exact h.symm⟩
        | fault r => rw [hy] at h; exact absurd h (by simp [advanceOutcome])
        | refused r => rw [hy] at h; exact absurd h (by simp [advanceOutcome])

end Sys2Proof.Machine
end

