-- ==== Sys2Proof/Laws/Safety.lean ====
section
/-! SUPPORT. The states that Safety.lean names, field by field. -/

namespace Sys2Proof.Machine

variable (s : State)

/-! ## The state in which an instruction executes -/

@[simp] theorem atExecute_v : s.atExecute.v = s.v := rfl
@[simp] theorem atExecute_i : s.atExecute.i = s.i := rfl
@[simp] theorem atExecute_stack : s.atExecute.stack = s.stack := rfl
@[simp] theorem atExecute_sp : s.atExecute.sp = s.sp := rfl
@[simp] theorem atExecute_dt : s.atExecute.dt = s.dt := rfl
@[simp] theorem atExecute_st : s.atExecute.st = s.st := rfl
@[simp] theorem atExecute_fb : s.atExecute.fb = s.fb := rfl
@[simp] theorem atExecute_draw : s.atExecute.draw = s.draw := rfl
@[simp] theorem atExecute_running : s.atExecute.running = s.running := rfl
@[simp] theorem atExecute_started : s.atExecute.started = s.started := rfl
@[simp] theorem atExecute_fault : s.atExecute.fault = s.fault := rfl
@[simp] theorem atExecute_mem : s.atExecute.mem = s.mem := rfl
@[simp] theorem atExecute_initialized : s.atExecute.initialized = s.initialized := rfl
@[simp] theorem atExecute_callmc : s.atExecute.callmc = s.callmc := rfl
@[simp] theorem atExecute_font : s.atExecute.font = s.font := rfl
@[simp] theorem atExecute_script : s.atExecute.script = s.script := rfl
@[simp] theorem atExecute_ticks : s.atExecute.ticks = s.ticks := rfl
@[simp] theorem atExecute_pc : s.atExecute.pc = s.pc + 2#16 := rfl
@[simp] theorem atExecute_out : s.atExecute.out = [] := rfl
@[simp] theorem atExecute_reply : s.atExecute.reply = none := rfl
@[simp] theorem atExecute_reg (x : Nibble) : s.atExecute.reg x = s.reg x := by simp [State.reg]
@[simp] theorem atExecute_inputs : s.atExecute.inputs = s.inputs := by simp [State.inputs]

/-- The key flags an instruction sees are the sample of its cycle (R91). -/
theorem key_atExecute (j : Nat) (h : j < 16) : s.atExecute.key j = s.inputs.keyIn.getLsbD j :=
  (key_of_k (t := s.atExecute) (s := s.clearOutputs.sampleKeys) rfl j).trans (by rw [key_sampleKeys _ _ h]; simp)

/-- The advance of `pc` does not wrap where an instruction can be fetched (R93). -/
theorem toNat_atExecute_pc (h : s.pc.toNat ≤ 4093) : s.atExecute.pc.toNat = s.pc.toNat + 2 := by
  rw [atExecute_pc, BitVec.toNat_add]; simp; omega

/-! ## The answer to a host command -/

/-- The step of a command that is only answered. -/
theorem answer_advanceInputs (r : HostReply) : (s.clearOutputs.answer r).advanceInputs = s.answered r := rfl

end Sys2Proof.Machine
end

