-- ==== Sys2Proof/Tests/Slice0.lean ====
section
/-! SUPPORT. The model's own tests. Expected results come from spec/95_test_vectors.md (S, T and P ids), from the words and
examples of the rules (R ids), or are worked out by hand from them. Then, for every statement with hypotheses, a named
theorem that a concrete state meets them. -/

namespace Sys2Proof.Tests

open Sys2Proof Sys2Proof.Machine

/-! ## Helpers -/

/-- A running core at 0x200 (the "fresh" state of 95_test_vectors.md) whose next two steps see these ports. -/
def fresh (keyIn : BitVec 16) (rnd : Byte) : State :=
  { State.reset.begin with script := [⟨none, keyIn, rnd⟩, ⟨none, keyIn, rnd⟩] }

/-- The fresh state with no key held. -/
def base : State := fresh 0x0000#16 0x00#8

/-- A reset core that is not started, whose next step serves `c`. -/
def given (c : HostCommand) : State := { State.reset with script := [⟨some c, 0x0000#16, 0x00#8⟩] }

/-- The running core whose next step serves `c`. -/
def givenRunning (c : HostCommand) : State := { base with script := [⟨some c, 0x0000#16, 0x00#8⟩] }

/-- Whether an outcome is a next state that meets `p`. -/
def nextIs (o : Host.Outcome State Fault Refusal) (p : State → Bool) : Bool :=
  match o with
  | .next t => p t
  | .fault _ => false
  | .refused _ => false

/-- One step of `s` with the word `op` placed where it fetches. -/
def run (s : State) (op : Nat) (p : State → Bool) : Bool := nextIs (step (s.withFetchWord 16 op)) p

/-- Two steps of `s`. -/
def run2 (s : State) (p : State → Bool) : Bool := nextIs (step s) fun t => nextIs (step t) p

/-- `s` with one byte of memory written. -/
def poke (s : State) (a : Nat) (b : Byte) : State := s.setMem (s.mem.write a b)

/-- `s` with one pixel lit. -/
def lit (s : State) (y x : Nat) : State := s.setFb (s.fb.toggle y x)

/-! ## Well-formedness (R76): the one check, on its three parts -/

theorem test_wf_callmc_above : (Instr.callMachineCode 0x200#12).wf = false := by decide
theorem test_wf_callmc_clearScreen : (Instr.callMachineCode 0x0E0#12).wf = false := by decide
theorem test_wf_callmc_return : (Instr.callMachineCode 0x0EE#12).wf = false := by decide
theorem test_wf_callmc_highest : (Instr.callMachineCode 0x1FF#12).wf = true := by decide

/-! ## Decoding: every constructor from a word written out from the pattern of R74 -/

theorem test_decode_clearScreen : decode 0b0000000011100000#16 = .ok .clearScreen := by decide
theorem test_decode_return : decode 0b0000000011101110#16 = .ok .ret := by decide
theorem test_decode_callMachineCode : decode 0b0000000111111111#16 = .ok (.callMachineCode 0x1FF#12) := by decide
theorem test_decode_callMachineCode_zero : decode 0x0000#16 = .ok (.callMachineCode 0x000#12) := by decide
theorem test_decode_callMachineCode_1E0 : decode 0x01E0#16 = .ok (.callMachineCode 0x1E0#12) := by decide
theorem test_decode_jump : decode 0b0001001000001010#16 = .ok (.jump 0x20A#12) := by decide
theorem test_decode_callSubroutine : decode 0b0010101010111100#16 = .ok (.callSubroutine 0xABC#12) := by decide
theorem test_decode_skipIfEqualValue : decode 0b0011000100000101#16 = .ok (.skipIfEqualValue 1#4 0x05#8) := by decide
theorem test_decode_skipIfNotEqualValue :
    decode 0b0100000100000110#16 = .ok (.skipIfNotEqualValue 1#4 0x06#8) := by decide
theorem test_decode_skipIfEqualRegister :
    decode 0b0101000100100001#16 = .ok (.skipIfEqualRegister 1#4 2#4) := by decide
theorem test_decode_loadValue : decode 0b0110101000111100#16 = .ok (.loadValue 0xA#4 0x3C#8) := by decide
theorem test_decode_addValue : decode 0b0111000000000010#16 = .ok (.addValue 0#4 0x02#8) := by decide
theorem test_decode_loadRegister : decode 0b1000111011110000#16 = .ok (.loadRegister 0xE#4 0xF#4) := by decide
theorem test_decode_or : decode 0b1000000100100001#16 = .ok (.or 1#4 2#4) := by decide
theorem test_decode_and : decode 0b1000000100100010#16 = .ok (.and 1#4 2#4) := by decide
theorem test_decode_xor : decode 0b1000000100100011#16 = .ok (.xor 1#4 2#4) := by decide
theorem test_decode_addRegisters : decode 0b1000000100100100#16 = .ok (.addRegisters 1#4 2#4) := by decide
theorem test_decode_subtractRegisters : decode 0b1000000100100101#16 = .ok (.subtractRegisters 1#4 2#4) := by decide
theorem test_decode_shiftRight : decode 0b1000000100100110#16 = .ok (.shiftRight 1#4) := by decide
theorem test_decode_reverseSubtract : decode 0b1000000100100111#16 = .ok (.reverseSubtract 1#4 2#4) := by decide
theorem test_decode_shiftLeft : decode 0b1000000100001110#16 = .ok (.shiftLeft 1#4) := by decide
theorem test_decode_skipIfNotEqualRegister :
    decode 0b1001000100101111#16 = .ok (.skipIfNotEqualRegister 1#4 2#4) := by decide
theorem test_decode_loadIndex : decode 0b1010000100100011#16 = .ok (.loadIndex 0x123#12) := by decide
theorem test_decode_jumpPlusV0 : decode 0b1011111111111111#16 = .ok (.jumpPlusV0 0xFFF#12) := by decide
theorem test_decode_randomAnd : decode 0b1100001100001111#16 = .ok (.randomAnd 3#4 0x0F#8) := by decide
theorem test_decode_drawSprite : decode 0b1101000000010101#16 = .ok (.drawSprite 0#4 1#4 5#4) := by decide
theorem test_decode_skipIfKeyPressed : decode 0b1110010010011110#16 = .ok (.skipIfKeyPressed 4#4) := by decide
theorem test_decode_skipIfKeyNotPressed : decode 0b1110010010100001#16 = .ok (.skipIfKeyNotPressed 4#4) := by decide
theorem test_decode_loadDelayTimer : decode 0b1111000100000111#16 = .ok (.loadDelayTimer 1#4) := by decide
theorem test_decode_waitForKey : decode 0b1111010100001010#16 = .ok (.waitForKey 5#4) := by decide
theorem test_decode_setDelayTimer : decode 0b1111000100010101#16 = .ok (.setDelayTimer 1#4) := by decide
theorem test_decode_setSoundTimer : decode 0b1111000000011000#16 = .ok (.setSoundTimer 0#4) := by decide
theorem test_decode_addToIndex : decode 0b1111001000011110#16 = .ok (.addToIndex 2#4) := by decide
theorem test_decode_loadSpriteLocation : decode 0b1111001000101001#16 = .ok (.loadSpriteLocation 2#4) := by decide
theorem test_decode_storeBCD : decode 0b1111101000110011#16 = .ok (.storeBCD 0xA#4) := by decide
theorem test_decode_storeRegisters : decode 0b1111000101010101#16 = .ok (.storeRegisters 1#4) := by decide
theorem test_decode_loadRegisters : decode 0b1111000101100101#16 = .ok (.loadRegisters 1#4) := by decide

/-- T6, T7, T10 to T14: the words that decode to nothing. -/
theorem test_decode_illegal :
    decode 0x0200#16 = .error (.unknownOpcode 0x0200#16) ∧ decode 0x0FFF#16 = .error (.unknownOpcode 0x0FFF#16) ∧
    decode 0x8128#16 = .error (.unknownOpcode 0x8128#16) ∧ decode 0x812F#16 = .error (.unknownOpcode 0x812F#16) ∧
    decode 0xE00E#16 = .error (.unknownOpcode 0xE00E#16) ∧ decode 0xE19F#16 = .error (.unknownOpcode 0xE19F#16) ∧
    decode 0xF0FF#16 = .error (.unknownOpcode 0xF0FF#16) := by decide

/-- R50: the byte at the lower address is the high byte; R70: an instruction is two bytes. -/
theorem test_decodeBytes : decodeBytes [0x6A#8, 0x3C#8, 0x12#8] = .ok (.loadValue 0xA#4 0x3C#8, [0x12#8]) := by decide
theorem test_decodeBytes_short : decodeBytes [0x6A#8] = .error .truncated := by decide
theorem test_decodeTableWord : decodeTableWord 16 0xD015 = some (.drawSprite 0#4 1#4 5#4) := by decide

/-- The forms of R83 encode to the words it gives. -/
theorem test_encode :
    encode .clearScreen = 0x00E0#16 ∧ encode (.jump 0x20A#12) = 0x120A#16 ∧
    encode (.loadValue 0xA#4 0x3C#8) = 0x6A3C#16 ∧ encode (.addRegisters 0#4 1#4) = 0x8014#16 ∧
    encode (.storeBCD 0xA#4) = 0xFA33#16 ∧ encode (.drawSprite 0#4 1#4 5#4) = 0xD015#16 := by decide

/-! ## Control flow -/

/-- T47. -/
theorem test_return : run { base with sp := 1, stack := base.stack.set 1 0x0206#16 } 0x00EE
    (fun t => t.pc == 0x206#16 && t.sp == 0 && t.stack[1] == 0x0206#16) = true := by decide
/-- S6, first half. -/
theorem test_return_underflow : run base 0x00EE
    (fun t => t.fault == some .stackUnderflow && t.sp == 0 && t.pc == 0x202#16 && !t.running) = true := by decide
/-- The example of R112: `0x0123` under `NOP`. -/
theorem test_callMachineCode_nop : run base 0x0123 (fun t => t.pc == 0x202#16 && t.fault == none && t.running) = true := by
  decide
/-- T3 to T5 under `UNSUPPORTED`. -/
theorem test_callMachineCode_unsupported : run { base with callmc := .unsupported } 0x01FF
    (fun t => t.fault == some (.unsupported 0x01FF#16 0x202#16)) = true := by decide
/-- T44. -/
theorem test_jump : run base 0x1ABC (fun t => t.pc == 0xABC#16) = true := by decide
/-- T46. -/
theorem test_call : run base 0x2300 (fun t => t.pc == 0x300#16 && t.sp == 1 && t.stack[1] == 0x0202#16) = true := by decide
/-- P6, cycle 16. -/
theorem test_call_overflow : run { base with sp := 15 } 0x2200
    (fun t => t.fault == some (.stackOverflow 15) && t.sp == 15 && t.pc == 0x202#16
      && t.out == [.faultOut (.stackOverflow 15), .stopped]) = true := by decide
/-- T48. -/
theorem test_skipIfEqualValue : run (base.setReg 1#4 0x05#8) 0x3105 (fun t => t.pc == 0x204#16) = true := by decide
/-- T55. -/
theorem test_skipIfEqualValue_overflow : run (base.setPc 0xFFC#16) 0x3000
    (fun t => t.fault == some (.programCounterOverflow 0xFFE#16) && t.pc == 0xFFE#16) = true := by decide
/-- T49. -/
theorem test_skipIfNotEqualValue : run (base.setReg 1#4 0x05#8) 0x4106 (fun t => t.pc == 0x204#16) = true := by decide
theorem test_skipIfNotEqualValue_not : run (base.setReg 1#4 0x05#8) 0x4105 (fun t => t.pc == 0x202#16) = true := by decide
/-- T50. -/
theorem test_skipIfEqualRegister : run ((base.setReg 1#4 0x05#8).setReg 2#4 0x05#8) 0x5121
    (fun t => t.pc == 0x204#16) = true := by decide
theorem test_skipIfNotEqualRegister : run ((base.setReg 1#4 0x05#8).setReg 2#4 0x05#8) 0x9120
    (fun t => t.pc == 0x202#16) = true := by decide
/-- The example of R118. -/
theorem test_skipIfNotEqualRegister_taken : run ((base.setReg 1#4 0x07#8).setReg 2#4 0x08#8) 0x9120
    (fun t => t.pc == 0x204#16) = true := by decide
/-- T51. -/
theorem test_jumpPlusV0 : run (base.setReg 0#4 0x10#8) 0xB300 (fun t => t.pc == 0x310#16) = true := by decide
/-- T52: the sum is not reduced, and the next fetch faults. -/
theorem test_jumpPlusV0_high : run2 ((base.setReg 0#4 0xFF#8).withFetchWord 16 0xBFFF)
    (fun t => t.pc == 0x10FE#16 && t.fault == some (.outOfBounds 0x10FE)) = true := by decide

/-! ## Arithmetic and logic -/

/-- S2. -/
theorem test_loadValue : run base 0x6A3C (fun t => t.reg 0xA#4 == 0x3C#8 && t.reg 0xF#4 == 0x00#8) = true := by decide
/-- T34. -/
theorem test_addValue : run (base.setReg 0#4 0xFF#8) 0x7002 (fun t => t.reg 0#4 == 0x01#8 && t.reg 0xF#4 == 0#8) = true := by
  decide
/-- T35. -/
theorem test_addValue_vf : run base 0x7F01 (fun t => t.reg 0xF#4 == 0x01#8) = true := by decide
/-- T36. -/
theorem test_loadRegister : run (base.setReg 2#4 0x3C#8) 0x8120
    (fun t => t.reg 1#4 == 0x3C#8 && t.reg 2#4 == 0x3C#8) = true := by decide
/-- T37. -/
theorem test_or : run (((base.setReg 1#4 0xF0#8).setReg 2#4 0x3C#8).setReg 0xF#4 0x55#8) 0x8121
    (fun t => t.reg 1#4 == 0xFC#8 && t.reg 0xF#4 == 0x55#8) = true := by decide
/-- T38. -/
theorem test_and : run ((base.setReg 1#4 0xF0#8).setReg 2#4 0x3C#8) 0x8122 (fun t => t.reg 1#4 == 0x30#8) = true := by decide
/-- T39, T40. -/
theorem test_xor : run ((base.setReg 1#4 0xF0#8).setReg 2#4 0x3C#8) 0x8123 (fun t => t.reg 1#4 == 0xCC#8) = true := by decide
theorem test_xor_self : run (base.setReg 1#4 0x5A#8) 0x8113 (fun t => t.reg 1#4 == 0x00#8) = true := by decide
/-- T20. -/
theorem test_addRegisters : run ((base.setReg 1#4 0xFF#8).setReg 2#4 0x01#8) 0x8124
    (fun t => t.reg 1#4 == 0x00#8 && t.reg 0xF#4 == 0x01#8) = true := by decide
/-- T22. -/
theorem test_addRegisters_vf : run ((base.setReg 0xF#4 0xF0#8).setReg 1#4 0x20#8) 0x8F14
    (fun t => t.reg 0xF#4 == 0x10#8) = true := by decide
/-- T25. -/
theorem test_subtractRegisters : run ((base.setReg 1#4 0x03#8).setReg 2#4 0x05#8) 0x8125
    (fun t => t.reg 1#4 == 0xFE#8 && t.reg 0xF#4 == 0x00#8) = true := by decide
/-- T26. -/
theorem test_subtractRegisters_vf : run ((base.setReg 1#4 0x10#8).setReg 0xF#4 0x20#8) 0x81F5
    (fun t => t.reg 1#4 == 0xF0#8 && t.reg 0xF#4 == 0x00#8) = true := by decide
/-- T30. -/
theorem test_shiftRight : run ((base.setReg 1#4 0x05#8).setReg 2#4 0xAA#8) 0x8126
    (fun t => t.reg 1#4 == 0x02#8 && t.reg 0xF#4 == 0x01#8 && t.reg 2#4 == 0xAA#8) = true := by decide
/-- T31. -/
theorem test_shiftRight_vf : run (base.setReg 0xF#4 0x06#8) 0x8F06 (fun t => t.reg 0xF#4 == 0x03#8) = true := by decide
/-- T28. -/
theorem test_reverseSubtract : run ((base.setReg 1#4 0x03#8).setReg 2#4 0x05#8) 0x8127
    (fun t => t.reg 1#4 == 0x02#8 && t.reg 0xF#4 == 0x01#8 && t.reg 2#4 == 0x05#8) = true := by decide
/-- T29. -/
theorem test_reverseSubtract_vf : run ((base.setReg 0xF#4 0x10#8).setReg 1#4 0x20#8) 0x8F17
    (fun t => t.reg 0xF#4 == 0x10#8) = true := by decide
/-- T32. -/
theorem test_shiftLeft : run (base.setReg 1#4 0x81#8) 0x810E
    (fun t => t.reg 1#4 == 0x02#8 && t.reg 0xF#4 == 0x01#8) = true := by decide
/-- T33. -/
theorem test_shiftLeft_vf : run (base.setReg 0xF#4 0x81#8) 0x8FFE (fun t => t.reg 0xF#4 == 0x02#8) = true := by decide
/-- T41, T42. -/
theorem test_randomAnd : run (fresh 0#16 0xA7#8) 0xC30F (fun t => t.reg 3#4 == 0x07#8) = true := by decide
theorem test_randomAnd_all : run (fresh 0#16 0xA7#8) 0xC3FF (fun t => t.reg 3#4 == 0xA7#8) = true := by decide

/-! ## Index register and memory -/

/-- S3, the first instruction. -/
theorem test_loadIndex : run base 0xA123 (fun t => t.i == 0x0123#16) = true := by decide
/-- T57. -/
theorem test_addToIndex : run ((base.setIndex 0x0FFF#16).setReg 0#4 0x01#8) 0xF01E
    (fun t => t.i == 0x1000#16 && t.reg 0xF#4 == 0x00#8) = true := by decide
/-- T58. -/
theorem test_addToIndex_wraps : run ((base.setIndex 0xFFFF#16).setReg 0#4 0x01#8) 0xF01E
    (fun t => t.i == 0x0000#16) = true := by decide
/-- T59. -/
theorem test_loadSpriteLocation : run (base.setReg 2#4 0x1A#8) 0xF229 (fun t => t.i == 0x0032#16) = true := by decide
/-- T60. -/
theorem test_storeBCD : run ((base.setIndex 0x300#16).setReg 0#4 0xFE#8) 0xF033
    (fun t => t.mem.read 0x300 == 2#8 && t.mem.read 0x301 == 5#8 && t.mem.read 0x302 == 4#8) = true := by decide
/-- T62. -/
theorem test_storeBCD_outOfBounds : run ((base.setIndex 0xFFE#16).setReg 0#4 0xFF#8) 0xF033
    (fun t => t.mem.read 0xFFE == 2#8 && t.mem.read 0xFFF == 5#8 && t.fault == some (.outOfBounds 0x1000)
      && t.pc == 0x202#16) = true := by decide
/-- T65. -/
theorem test_storeRegisters :
    run (({ base with v := #v[1#8, 2#8, 3#8, 4#8, 0#8, 0#8, 0#8, 0#8, 0#8, 0#8, 0#8, 0#8, 0#8, 0#8, 0#8, 0#8] }).setIndex
      0x400#16) 0xF255
    (fun t => t.mem.read 0x400 == 1#8 && t.mem.read 0x401 == 2#8 && t.mem.read 0x402 == 3#8 && t.mem.read 0x403 == 0#8
      && t.i == 0x400#16) = true := by decide
/-- T63. -/
theorem test_storeRegisters_outOfBounds :
    run (((base.setIndex 0xFFF#16).setReg 0#4 0x11#8).setReg 1#4 0x22#8) 0xF155
    (fun t => t.mem.read 0xFFF == 0x11#8 && t.fault == some (.outOfBounds 0x1000)) = true := by decide
/-- The example of R155. -/
theorem test_loadRegisters : run ((poke (poke (poke base 0x300 2#8) 0x301 5#8) 0x302 4#8).setIndex 0x300#16) 0xF265
    (fun t => t.reg 0#4 == 2#8 && t.reg 1#4 == 5#8 && t.reg 2#4 == 4#8 && t.i == 0x300#16) = true := by decide
/-- T64. -/
theorem test_loadRegisters_outOfBounds :
    run (((poke base 0xFFF 0x77#8).setIndex 0xFFF#16).setReg 1#4 0x33#8) 0xF165
    (fun t => t.reg 0#4 == 0x77#8 && t.reg 1#4 == 0x33#8 && t.fault == some (.outOfBounds 0x1000)) = true := by decide
/-- R55, R243: glyph A of the font at 0x032, and zero above the font. -/
theorem test_reset_memory :
    (State.reset.mem.read 0x32, State.reset.mem.read 0x4F, State.reset.mem.read 0x50) = (0xF0#8, 0x80#8, 0x00#8) := by decide
/-- A write of what an unlisted address reads as leaves no entry. -/
theorem test_memory_canonical : Memory.write (Memory.write [] 0x300 0x12#8) 0x300 0x00#8 = [] := by decide
theorem test_memory_order : Memory.write (Memory.write [] 0x300 0x12#8) 0x200 0x01#8 = [(0x200, 0x01#8), (0x300, 0x12#8)] := by
  decide

/-! ## Display -/

/-- T84, with R98: the cycle raises `frame_ready` and clears the draw flag. -/
theorem test_clearScreen : run (lit base 5 9) 0x00E0
    (fun t => !t.fb.pixel 5 9 && t.out == [.updated, .frameReady] && !t.draw) = true := by decide
/-- T76: wrap at both edges; bit 7 is the leftmost pixel. -/
theorem test_drawSprite_wraps :
    run ((((poke (poke base 0x210 0xC3#8) 0x211 0x81#8).setIndex 0x210#16).setReg 0#4 62#8).setReg 1#4 31#8) 0xD012
    (fun t => t.fb.pixel 31 62 && t.fb.pixel 31 63 && t.fb.pixel 31 4 && t.fb.pixel 31 5 && t.fb.pixel 0 62
      && t.fb.pixel 0 5 && !t.fb.pixel 31 0 && !t.fb.pixel 0 63 && t.reg 0xF#4 == 0#8) = true := by decide
/-- T81: the rows inside memory are drawn, `VF` and the draw flag are not written. -/
theorem test_drawSprite_outOfBounds :
    run ((((poke (poke base 0xFFE 0x80#8) 0xFFF 0x01#8).setIndex 0xFFE#16).setReg 0#4 62#8).setReg 0xF#4 9#8) 0xD013
    (fun t => t.fb.pixel 0 62 && t.fb.pixel 1 5 && !t.fb.pixel 2 62 && t.fault == some (.outOfBounds 0x1000)
      && t.reg 0xF#4 == 9#8 && !t.draw) = true := by decide

/-! ## Keys and timers -/

/-- T70. -/
theorem test_skipIfKeyPressed : run ((fresh 0x0400#16 0#8).setReg 4#4 0x0A#8) 0xE49E (fun t => t.pc == 0x204#16) = true := by
  decide
/-- T72. -/
theorem test_skipIfKeyPressed_range : run (base.setReg 0#4 0x10#8) 0xE09E
    (fun t => t.fault == some (.keyIndexOutOfRange 0x10#8) && t.pc == 0x202#16) = true := by decide
/-- T71. -/
theorem test_skipIfKeyNotPressed : run ((fresh 0x0400#16 0#8).setReg 4#4 0x0A#8) 0xE4A1
    (fun t => t.pc == 0x202#16) = true := by decide
theorem test_skipIfKeyNotPressed_taken : run (base.setReg 4#4 0x0A#8) 0xE4A1 (fun t => t.pc == 0x204#16) = true := by decide
/-- P5, cycle 3: keys 3 and 6 held. -/
theorem test_waitForKey : run (fresh 0x0048#16 0#8) 0xF50A (fun t => t.reg 5#4 == 3#8 && t.pc == 0x202#16) = true := by decide
/-- P5, cycle 1. -/
theorem test_waitForKey_retries : run base 0xF50A (fun t => t.pc == 0x200#16 && t.out == [.updated]) = true := by decide
/-- T73. -/
theorem test_loadDelayTimer : run (base.setDelay 2#8) 0xF107 (fun t => t.reg 1#4 == 2#8 && t.dt == 1#8) = true := by decide
/-- The example of R184. -/
theorem test_setDelayTimer : run (base.setReg 0#4 3#8) 0xF015 (fun t => t.dt == 2#8) = true := by decide
/-- The example of R185, and T69. -/
theorem test_setSoundTimer : run (base.setReg 0#4 2#8) 0xF018
    (fun t => t.st == 1#8 && t.out == [.updated, .beep]) = true := by decide
theorem test_setSoundTimer_one : run (base.setReg 0#4 1#8) 0xF018 (fun t => t.st == 0#8 && t.out == [.updated]) = true := by
  decide

/-! ## The cycle and the host commands -/

/-- T6: the fault records the opcode and the advanced `pc`. -/
theorem test_unknownOpcode : run base 0x0200
    (fun t => t.fault == some (.unknownOpcode 0x0200#16 0x202#16) && t.pc == 0x202#16) = true := by decide
/-- T53: an instruction at 4094 does not execute. -/
theorem test_fetch_4094 : nextIs (step (base.setPc 0xFFE#16))
    (fun t => t.fault == some (.programCounterOverflow 0xFFE#16) && t.pc == 0xFFE#16) = true := by decide
/-- T54. -/
theorem test_fetch_4095 : nextIs (step (base.setPc 0xFFF#16))
    (fun t => t.fault == some (.outOfBounds 0x1000) && t.pc == 0xFFF#16) = true := by decide
set_option maxRecDepth 8192 in
/-- T85, the command. -/
theorem test_initialize : nextIs (step (given (.initRom [0xAA#8])))
    (fun t => t.mem.read 0x200 == 0xAA#8 && t.mem.read 0x201 == 0#8 && t.mem.read 0 == 0xF0#8 && t.pc == 0#16
      && t.reply == some .done) = true := by decide
set_option maxRecDepth 8192 in
/-- R57, R243: another `FONT` of the machine is what `Initialize` loads, and all of it. -/
theorem test_initialize_font : nextIs (step { given (.initRom [0xAA#8]) with font := Vector.replicate 80 0x11#8 })
    (fun t => t.mem.read 0 == 0x11#8 && t.mem.read 0x4F == 0x11#8 && t.mem.read 0x50 == 0#8 && t.mem.read 0x200 == 0xAA#8
      && t.mem.wf) = true := by decide
set_option maxRecDepth 8192 in
/-- The reset state is what `Initialize` with the empty ROM leaves (R41). -/
theorem test_reset_is_initialize :
    nextIs (step (given (.initRom []))) (fun t => t.mem == State.reset.mem && t.mem == []) = true := by decide
/-- T85, the `Start` after it. -/
theorem test_start : nextIs (step (given .start))
    (fun t => t.pc == 0x200#16 && t.running && t.started && t.out == [.started]) = true := by decide
/-- T86. -/
theorem test_start_running : nextIs (step (givenRunning .start))
    (fun t => t.running && t.reply == some (.failed .alreadyRunning) && t.pc == 0x200#16) = true := by decide
/-- T90: `Start` is refused on a faulted core. -/
theorem test_start_faulted : nextIs (step { given .start with fault := some .stackUnderflow })
    (fun t => !t.running && t.reply == some .refused) = true := by decide
/-- R246, T87. -/
theorem test_stop : nextIs (step (givenRunning .stop)) (fun t => !t.running && t.out == [.stopped]) = true := by decide
theorem test_stop_stopped : nextIs (step (given .stop)) (fun t => t.reply == some (.failed .alreadyStopped)) = true := by decide
/-- R248. -/
theorem test_load : nextIs (step (given (.load [0x12#8, 0x34#8] 0xFFE)))
    (fun t => t.mem.read 0xFFE == 0x12#8 && t.mem.read 0xFFF == 0x34#8) = true := by decide
/-- R249. -/
theorem test_setKeyState : nextIs (step (given (.setKeyState 15 true))) (fun t => t.key 15 && t.draw) = true := by decide
/-- R90: a stopped core takes no step. -/
theorem test_stopped : step { State.reset with script := [⟨none, 0#16, 0#8⟩] } = .fault .coreStopped := rfl
/-- T89: the reset state runs on the empty ROM once it is started; its first word is CallMachineCode. -/
theorem test_core_reset : core.reset.safe := rfl
theorem test_empty_rom : run2 { given .start with script := [⟨some .start, 0#16, 0#8⟩, ⟨none, 0#16, 0#8⟩] }
    (fun t => t.pc == 0x202#16 && t.fault == none) = true := by decide

/-! ## Witnesses: concrete states that meet the hypotheses of each statement, at the boundaries where its clauses meet -/

/-- `s` with the word `w` placed for its next step. -/
def ready (s : State) (w : Nat) : State := s.withFetchWord 16 w

theorem test_witness_DecodeInvertsEncode : (Instr.callMachineCode 0x1FF#12).wf = true := by decide

theorem test_witness_DecodeMatchesOpcodeTable : decode 0x8AB6#16 = .ok (.shiftRight 0xA#4) := by decide

theorem test_witness_IllegalWordsExactly :
    illegalWord 0x0200#16 = true ∧ illegalWord 0x01FF#16 = false ∧ illegalWord 0x812D#16 = true ∧
    illegalWord 0x812E#16 = false ∧ illegalWord 0xE19F#16 = true ∧ illegalWord 0xE19E#16 = false ∧
    illegalWord 0xF166#16 = true ∧ illegalWord 0xF165#16 = false := by decide

theorem test_witness_StepRunsDecodedInstruction :
    (ready base 0x6A3C).canCycle ∧ (ready base 0x6A3C).fetches (.loadValue 0xA#4 0x3C#8) := by decide

theorem test_witness_StepRunsDecodedInstruction_last :
    (ready (base.setPc 0xFFD#16) 0x6A3C).canCycle ∧
    (ready (base.setPc 0xFFD#16) 0x6A3C).fetches (.loadValue 0xA#4 0x3C#8) ∧
    (ready (base.setPc 0xFFD#16) 0x6A3C).pc = 0xFFD#16 := by decide

theorem test_witness_FetchFaultsAtTheTopOfMemory :
    ((base.setPc 0x1000#16).canCycle ∧ 4096 ≤ (base.setPc 0x1000#16).pc.toNat) ∧
    ((base.setPc 0xFFF#16).canCycle ∧ (base.setPc 0xFFF#16).pc.toNat = 4095) ∧
    ((base.setPc 0xFFE#16).canCycle ∧ (base.setPc 0xFFE#16).pc.toNat = 4094) := by decide

theorem test_witness_IllegalWordFaultsTheCycle :
    (ready (base.setPc 0xFFD#16) 0x0200).canCycle ∧ (ready (base.setPc 0xFFD#16) 0x0200).pc.toNat ≤ 4093 ∧
    0x0200#16 = wordOfBytes ((ready (base.setPc 0xFFD#16) 0x0200).mem.read (ready (base.setPc 0xFFD#16) 0x0200).pc.toNat)
      ((ready (base.setPc 0xFFD#16) 0x0200).mem.read ((ready (base.setPc 0xFFD#16) 0x0200).pc.toNat + 1)) ∧
    illegalWord 0x0200#16 = true := by decide

theorem test_witness_CompletedCycleEnds :
    (ready base 0x00E0).canCycle ∧ (ready base 0x00E0).fetches .clearScreen ∧
    exec .clearScreen (ready base 0x00E0).atExecute
      = .next ((ready base 0x00E0).atExecute.setFb FrameBuffer.clear).setDraw ∧
    ((ready base 0x00E0).atExecute.setFb FrameBuffer.clear).setDraw.fault = none :=
  ⟨by decide, by decide, rfl, rfl⟩

theorem test_witness_FaultedCycleStops :
    (base.setPc 0xFFE#16).canCycle ∧
    ∃ t, step (base.setPc 0xFFE#16) = .next t ∧ t.fault = some (.programCounterOverflow 0xFFE#16) ∧
      t.inputs.command = none := ⟨by decide, _, rfl, rfl, rfl⟩

theorem test_witness_StoppedCoreTakesNoStep :
    (given .stop).advanceInputs.inputs.command = none ∧ (given .stop).advanceInputs.fault = none ∧
    (given .stop).advanceInputs.running = false ∧ (takeFault .stackUnderflow base).inputs.command = none ∧
    (takeFault .stackUnderflow base).fault = some .stackUnderflow := ⟨rfl, rfl, rfl, rfl, rfl⟩

theorem test_witness_KeysSampledEveryCycle :
    (ready (fresh 0x8001#16 0#8) 0x1200).canCycle ∧ ∃ t, step (ready (fresh 0x8001#16 0#8) 0x1200) = .next t :=
  ⟨by decide, _, rfl⟩

theorem test_witness_PlacedWordRuns : decodeTableWord 16 0xD015 = some (.drawSprite 0#4 1#4 5#4) := by decide

/-- The invariant holds of the running core of the tests, and its next step answers a state. -/
theorem test_witness_StepKeepsInvariant : base.Inv ∧ ∃ t, step base = .next t :=
  ⟨⟨by decide, by decide, by decide, by decide, by decide, fun f h => by cases h⟩, _, rfl⟩

theorem test_witness_NextAndRestoreStepPc :
    (base.setPc 0xFFD#16).pc.toNat + 2 < 4096 ∧ 4096 ≤ (base.setPc 0xFFE#16).pc.toNat + 2 ∧
    2 ≤ (base.setPc 0x002#16).pc.toNat ∧ (base.setPc 0x001#16).pc.toNat < 2 := by decide

theorem test_witness_PushAndPopMoveTheStack :
    (base.setSp 14).sp.val < 15 ∧ (base.setSp 15).sp.val = 15 ∧ 0 < (base.setSp 1).sp.val ∧ (base.setSp 0).sp.val = 0 := by
  decide

theorem test_witness_ReturnPopsStack : 0 < (base.setSp 1).sp.val ∧ (base.setSp 0).sp.val = 0 := by decide

theorem test_witness_CallMachineCodeByPolicy :
    ((0x1FF#12).toNat < 0x200 ∧ 0x1FF#12 ≠ 0x0E0#12 ∧ 0x1FF#12 ≠ 0x0EE#12) ∧ base.callmc = .nop ∧
    { base with callmc := .unsupported }.callmc = .unsupported := ⟨by decide, rfl, rfl⟩

theorem test_witness_CallPushesReturnAddress : (base.setSp 14).sp.val < 15 ∧ (base.setSp 15).sp.val = 15 := by decide

theorem test_witness_CallThenReturnResumes : (base.setSp 14).sp.val < 15 := by decide

theorem test_witness_ValueSkips :
    base.reg 1#4 ≠ 0x05#8 ∧ base.reg 1#4 = 0x00#8 ∧ (base.setPc 0xFFD#16).pc.toNat + 2 < 4096 ∧
    (base.setPc 0xFFD#16).reg 1#4 = 0x00#8 ∧ (base.setPc 0xFFD#16).reg 1#4 ≠ 0x05#8 ∧
    4096 ≤ (base.setPc 0xFFE#16).pc.toNat + 2 ∧ (base.setPc 0xFFE#16).reg 1#4 = 0x00#8 ∧
    (base.setPc 0xFFE#16).reg 1#4 ≠ 0x05#8 := by decide

theorem test_witness_RegisterSkips :
    (base.setReg 1#4 0x05#8).reg 1#4 ≠ (base.setReg 1#4 0x05#8).reg 2#4 ∧ base.reg 1#4 = base.reg 2#4 ∧
    (base.setPc 0xFFD#16).pc.toNat + 2 < 4096 ∧ (base.setPc 0xFFD#16).reg 1#4 = (base.setPc 0xFFD#16).reg 2#4 ∧
    ((base.setReg 1#4 0x05#8).setPc 0xFFD#16).reg 1#4 ≠ ((base.setReg 1#4 0x05#8).setPc 0xFFD#16).reg 2#4 ∧
    4096 ≤ (base.setPc 0xFFE#16).pc.toNat + 2 ∧ (base.setPc 0xFFE#16).reg 1#4 = (base.setPc 0xFFE#16).reg 2#4 ∧
    ((base.setReg 1#4 0x05#8).setPc 0xFFE#16).reg 1#4 ≠ ((base.setReg 1#4 0x05#8).setPc 0xFFE#16).reg 2#4 := by decide

theorem test_witness_AddRegistersCarry : 0x1#4 ≠ 0xF#4 := by decide

theorem test_witness_SubtractsNoBorrow : 0xE#4 ≠ 0xF#4 := by decide

theorem test_witness_ShiftsInPlace : 0x0#4 ≠ 0xF#4 := by decide

theorem test_witness_StoreBCDDigits :
    (base.setIndex 0xFFD#16).i.toNat + 2 < 4096 ∧ 4096 ≤ (base.setIndex 0xFFE#16).i.toNat + 2 := by decide

theorem test_witness_StoreRegistersBlock :
    (base.setIndex 0xFF0#16).i.toNat + (0xF#4).toNat < 4096 ∧ 4096 ≤ (base.setIndex 0xFF1#16).i.toNat + (0xF#4).toNat := by
  decide

theorem test_witness_LoadRegistersBlock :
    (base.setIndex 0xFFF#16).i.toNat + (0x0#4).toNat < 4096 ∧ 4096 ≤ (base.setIndex 0xFFF#16).i.toNat + (0x1#4).toNat := by
  decide

theorem test_witness_ByteReadAfterWrite : 0xFFF < 4096 ∧ 4096 ≤ 0x1000 := by decide

theorem test_witness_StoredWordIsFetched :
    (base.setIndex 0x1FF#16).i.toNat + (0x2#4).toNat < 4096 ∧ (base.setIndex 0x1FF#16).i.toNat ≤ base.pc.toNat ∧
    base.pc.toNat + 1 ≤ (base.setIndex 0x1FF#16).i.toNat + (0x2#4).toNat := by decide

theorem test_witness_ClearScreenZeroes :
    (ready base 0x00E0).canCycle ∧ (ready base 0x00E0).fetches .clearScreen := by decide

theorem test_witness_DrawSpriteXors :
    (base.setIndex 0xFF1#16).i.toNat + (0xF#4).toNat ≤ 4096 ∧ (0x0#4).toNat = 0 ∧
    4096 < (base.setIndex 0xFF2#16).i.toNat + (0xF#4).toNat ∧ 0 < (0xF#4).toNat := by decide

theorem test_witness_DrawSpriteTwiceRestores :
    (base.setIndex 0xFFF#16).i.toNat + (0x1#4).toNat ≤ 4096 ∧ (0x0#4).toNat = 0 ∧ 0x0#4 ≠ 0xF#4 ∧ 0x1#4 ≠ 0xF#4 := by
  decide

/-- The clause of a pixel that was 0 under a 1 bit: the font's first byte at the top left of a clear screen. -/
theorem test_witness_DrawSpriteTwiceRestores_set :
    ∃ py < 32, ∃ px < 64, spriteAt base 0 0 1 py px = true ∧ base.fb.pixel py px = false :=
  ⟨0, by decide, 0, by decide, by decide, by decide⟩

/-- The clause of no such pixel: a sprite with no 1 bit. -/
theorem test_witness_DrawSpriteTwiceRestores_none :
    ∀ py < 32, ∀ px < 64, spriteAt base 0 0 0 py px = true → base.fb.pixel py px = true :=
  fun _ _ _ _ h => by simp [spriteAt] at h

theorem test_witness_KeySkips :
    15 < ((base.setReg 4#4 0x10#8).reg 4#4).toNat ∧ ((base.setReg 4#4 0x0F#8).reg 4#4).toNat ≤ 15 ∧
    (base.setReg 4#4 0x0F#8).key 15 = false ∧ (base.setReg 4#4 0x0F#8).pc.toNat + 2 < 4096 ∧
    ((fresh 0x8000#16 0#8).sampleKeys.setReg 4#4 0x0F#8).key 15 = true ∧
    4096 ≤ ((fresh 0x8000#16 0#8).sampleKeys.setPc 0xFFE#16).pc.toNat + 2 ∧
    ((fresh 0x8000#16 0#8).sampleKeys.setPc 0xFFE#16).key 15 = true ∧ (base.setPc 0xFFE#16).key 15 = false := by decide

theorem test_witness_WaitForKeyTakesLeastOrRetries :
    ((fresh 0x8000#16 0#8).sampleKeys.key 15 = true ∧ ∀ l < 15, (fresh 0x8000#16 0#8).sampleKeys.key l = false) ∧
    (∀ j < 16, base.key j = false) ∧ 2 ≤ (base.setPc 0x002#16).pc.toNat ∧ (base.setPc 0x001#16).pc.toNat < 2 ∧
    (ready base 0xF50A).canCycle ∧ (ready base 0xF50A).fetches (.waitForKey 5#4) ∧
    (ready base 0xF50A).inputs.keyIn = 0x0000#16 := by decide

theorem test_witness_TimerTransfers :
    ((ready base 0xF107).canCycle ∧ (ready base 0xF107).fetches (.loadDelayTimer 1#4)) ∧
    ((ready base 0xF115).canCycle ∧ (ready base 0xF115).fetches (.setDelayTimer 1#4)) ∧
    ((ready base 0xF118).canCycle ∧ (ready base 0xF118).fetches (.setSoundTimer 1#4)) := by decide

/-- The hypothesis of the two frames over all instructions: an instruction that completes, and one that takes its fault. -/
theorem test_witness_OnlyListedInstructionsWrite :
    (∃ t, exec .clearScreen base = .next t) ∧ mayWriteReg .clearScreen 0#4 = false ∧ writesPc .clearScreen = false ∧
    writesIndex .clearScreen = false ∧ storesMemory .clearScreen = false ∧ usesStack .clearScreen = false ∧
    (∀ f, mayRaise .clearScreen f = false) ∧ drawsScreen (.jump 0#12) = false :=
  ⟨⟨_, rfl⟩, rfl, rfl, rfl, rfl, rfl, fun _ => rfl, rfl⟩
theorem test_witness_InstructionsRaiseOnlyTheirFaults :
    (∃ t, exec .clearScreen base = .next t) ∧ ∃ t, exec .ret base = .next t := ⟨⟨_, rfl⟩, _, rfl⟩

theorem test_witness_UnderflowNeverRaised :
    (∃ t, step base = .next t) ∧ ∀ p, base.fault ≠ some (.programCounterUnderflow p) :=
  ⟨⟨_, rfl⟩, fun p h => by cases h⟩

theorem test_witness_OnlyRandomAndReadsTheDraw : ∀ x nn, Instr.waitForKey 0#4 ≠ .randomAnd x nn :=
  fun _ _ h => by cases h

theorem test_witness_InitializeResets :
    (given (.initRom (List.replicate 3584 0xAA#8))).inputs.command = some (.initRom (List.replicate 3584 0xAA#8)) ∧
    (given (.initRom (List.replicate 3584 0xAA#8))).running = false ∧ (List.replicate 3584 0xAA#8).length ≤ 3584 ∧
    3584 < (List.replicate 3585 0xAA#8).length :=
  ⟨rfl, rfl, by rw [List.length_replicate], by rw [List.length_replicate]; decide⟩

theorem test_witness_StartSeedsOnce :
    ((givenRunning .start).inputs.command = some .start ∧ (givenRunning .start).running = true) ∧
    ((given .start).inputs.command = some .start ∧ (given .start).running = false ∧ (given .start).fault = none ∧
      (given .start).initialized = true) := ⟨⟨rfl, rfl⟩, rfl, rfl, rfl, rfl⟩

theorem test_witness_RefusedCommandsChangeNothing :
    ((givenRunning (.initRom [])).inputs.command = some (.initRom []) ∧ (givenRunning (.initRom [])).running = true) ∧
    ({ given .start with initialized := false }.inputs.command = some .start ∧
      { given .start with initialized := false }.running = false ∧
      { given .start with initialized := false }.initialized = false) ∧
    ({ given .start with fault := some .stackUnderflow }.fault ≠ none) ∧
    ((givenRunning (.load [] 0)).inputs.command = some (.load [] 0) ∧ (givenRunning (.load [] 0)).running = true) ∧
    ((given (.setKeyState 16 true)).inputs.command = some (.setKeyState 16 true) ∧ 15 < 16) :=
  ⟨⟨rfl, rfl⟩, ⟨rfl, rfl, rfl⟩, by decide, ⟨rfl, rfl⟩, rfl, by decide⟩

theorem test_witness_StopEndsTheRun :
    ((givenRunning .stop).inputs.command = some .stop ∧ (givenRunning .stop).running = true) ∧
    ((given .stop).inputs.command = some .stop ∧ (given .stop).running = false) := ⟨⟨rfl, rfl⟩, rfl, rfl⟩

theorem test_witness_LoadCopiesOrFails :
    ((given (.load [0x12#8, 0x34#8] 0xFFF)).inputs.command = some (.load [0x12#8, 0x34#8] 0xFFF) ∧
      (given (.load [0x12#8, 0x34#8] 0xFFF)).running = false ∧ 4096 < 0xFFF + [0x12#8, 0x34#8].length) ∧
    ((given (.load [0x12#8, 0x34#8] 0xFFE)).inputs.command = some (.load [0x12#8, 0x34#8] 0xFFE) ∧
      0xFFE + [0x12#8, 0x34#8].length ≤ 4096) := ⟨⟨rfl, rfl, by decide⟩, rfl, by decide⟩

theorem test_witness_SetKeyStateMarksDraw :
    (given (.setKeyState 15 true)).inputs.command = some (.setKeyState 15 true) ∧
    (given (.setKeyState 15 true)).running = false ∧ 15 ≤ 15 := ⟨rfl, rfl, by decide⟩

end Sys2Proof.Tests
end

section
/-! PROOFS. The rules of the shared operations, what an instruction writes (O44), that every step keeps the invariant
(O13, O14), the reset values (O15, O48), and the moves of `pc` and of the return stack (O16, O17, O22). -/

namespace Sys2Proof.Machine

/-! ## A step of `pc` as a number -/

theorem toNat_add_two {w : Word} (h : w.toNat + 2 < 65536) : (w + 2#16).toNat = w.toNat + 2 :=
  BitVec.toNat_add_of_lt h

theorem toNat_sub_two {w : Word} (h : 2 ≤ w.toNat) : (w - 2#16).toNat = w.toNat - 2 :=
  BitVec.toNat_sub_of_le h

/-! ## The rules of the shared operations

Each rule says what has to hold of the states an operation can end in, and of the faults it can raise, for `Satisfies`
to hold of its result. -/

/-- Whichever way a piece of an instruction ends, its state meets `P`; a fault it raises meets `Q`. -/
def Result.Satisfies (P : State → Prop) (Q : CoreFault → Prop) : Result → Prop
  | .done t => P t
  | .raised f t => P t ∧ Q f

/-- What is known of the next state of an instruction whose result satisfies `P` and `Q`. -/
theorem next_cases_of_satisfies {o : Host.Outcome State Fault Refusal} {P : State → Prop} {Q : CoreFault → Prop}
    {t : State} (h : ∃ r : Result, o = r.outcome ∧ r.Satisfies P Q) (ht : o = .next t) :
    P t ∨ ∃ f u, t = takeFault f u ∧ P u ∧ Q f := by
  obtain ⟨r, rfl, hr⟩ := h
  cases r with
  | done u =>
    obtain rfl : u = t := by injection ht
    exact .inl hr
  | raised f u =>
    obtain rfl : takeFault f u = t := by injection ht
    exact .inr ⟨f, u, rfl, hr⟩

section
variable {P : State → Prop} {Q : CoreFault → Prop} {s : State}

/-- A skip (R115). -/
theorem satisfies_skipIf {c : Bool} (hs : P s) (hnext : s.pc.toNat + 2 < 4096 → P (s.setPc (s.pc + 2#16)))
    (hover : 4096 ≤ s.pc.toNat + 2 → Q (.programCounterOverflow s.pc)) : (s.skipIf c).Satisfies P Q := by
  cases c with
  | false => exact hs
  | true =>
    rw [skipIf_true]
    by_cases h : s.pc.toNat + 2 < 4096
    · rw [pcNext_of_lt h]; exact hnext h
    · rw [pcNext_of_ge (by omega)]; exact ⟨hs, hover (by omega)⟩

/-- A skip on a key flag (R180, R181). -/
theorem satisfies_skipOnKey {x : Nibble} {b : Bool} (hs : P s)
    (hnext : s.pc.toNat + 2 < 4096 → P (s.setPc (s.pc + 2#16)))
    (hover : 4096 ≤ s.pc.toNat + 2 → Q (.programCounterOverflow s.pc))
    (hkey : 15 < (s.reg x).toNat → Q (.keyIndexOutOfRange (s.reg x))) : (s.skipOnKey x b).Satisfies P Q := by
  by_cases h : (s.reg x).toNat > 15
  · rw [State.skipOnKey, if_pos h]; exact ⟨hs, hkey h⟩
  · rw [State.skipOnKey, if_neg h]; exact satisfies_skipIf hs hnext hover

/-- `Restore()` (R24). -/
theorem satisfies_pcRestore (hback : 2 ≤ s.pc.toNat → P (s.setPc (s.pc - 2#16)))
    (hunder : s.pc.toNat < 2 → P s ∧ Q (.programCounterUnderflow s.pc)) : s.pcRestore.Satisfies P Q := by
  by_cases h : 2 ≤ s.pc.toNat
  · rw [pcRestore_of_le h]; exact hback h
  · rw [pcRestore_of_lt (by omega)]; exact hunder (by omega)

/-- A block of stores (R54). -/
theorem satisfies_storeBytes {a : Nat} {bs : List Byte} (hmem : ∀ m, (s.mem.wf = true → m.wf = true) → P (s.setMem m))
    (hout : Q (.outOfBounds (max a 4096))) : (s.storeBytes a bs).Satisfies P Q := by
  obtain ⟨m, h, hm⟩ | ⟨m, h, hm⟩ := storeBytes_cases bs a s <;> rw [h]
  · exact hmem m hm
  · exact ⟨hmem m hm, hout⟩

/-- A block of loads into `V[0]` to `V[n - 1]` (R54, R155). -/
theorem satisfies_loadRegsFrom {a n : Nat} (hn : n ≤ 16)
    (hregs : ∀ v : Vector Byte 16, (∀ r : Nibble, n ≤ r.toNat → v[r.toNat] = s.reg r) → P { s with v := v })
    (hout : Q (.outOfBounds (max a 4096))) : (s.loadRegsFrom a 0 n).Satisfies P Q := by
  by_cases h : a + n ≤ 4096
  · obtain ⟨t, hr, ht, hv⟩ := loadRegsFrom_of_le n (s := s) (j := 0) h (by omega)
    rw [hr, ht]
    exact hregs t.v fun r hr => (hv r).trans (if_neg (by omega))
  · by_cases h0 : 0 < n
    · obtain ⟨t, hr, ht, hv⟩ := loadRegsFrom_of_gt n (s := s) (a := a) (j := 0) (by omega) h0 (by omega)
      rw [hr, ht]
      exact ⟨hregs t.v fun r hr => (hv r).trans (if_neg (by omega)), hout⟩
    · obtain rfl : n = 0 := by omega
      exact hregs s.v fun _ _ => rfl

/-- The rows of a sprite (R172). -/
theorem satisfies_blitRows {vx vy n : Nat} (hdone : ∀ v fb draw, (∀ r : Nibble, r ≠ vfIdx → v[r.toNat] = s.reg r) →
      P { s with v := v, fb := fb, draw := draw })
    (hout : ∀ a, 4096 ≤ a → a < s.i.toNat + n → Q (.outOfBounds a)) : (blitRows vx vy n 0 false s).Satisfies P Q := by
  obtain ⟨t, h, ht, hv⟩ | ⟨t, a, h, ht, hge, hlt⟩ := blitRows_cases vx vy n 0 false s <;> rw [h, ht]
  · exact hdone t.v t.fb t.draw hv
  · exact ⟨hdone s.v t.fb s.draw fun _ _ => rfl, hout a hge hlt⟩

end

/-! ## The branches of the instructions whose meaning is a match -/

section
variable {s : State}

theorem exec_ret_of_empty (h : s.sp.val = 0) : exec .ret s = .next (takeFault .stackUnderflow s) := by
  rw [exec, execReturn, pop_of_empty h]; rfl

theorem exec_ret_of_pos (h : s.sp.val ≠ 0) :
    exec .ret s = .next ((s.setSp ⟨s.sp.val - 1, by omega⟩).setPc s.stack[s.sp.val]) := by
  rw [exec, execReturn, pop_of_pos h]; rfl

theorem exec_callSubroutine_of_lt (nnn : Addr) (h : s.sp.val < 15) :
    exec (.callSubroutine nnn) s =
      .next (((s.setSp ⟨s.sp.val + 1, by omega⟩).setTop s.pc).setPc (zextAddr nnn)) := by
  rw [exec, execCallSubroutine, push_of_lt _ h]; rfl

theorem exec_callSubroutine_of_full (nnn : Addr) (h : s.sp.val = 15) :
    exec (.callSubroutine nnn) s = .next (takeFault (.stackOverflow s.sp) s) := by
  rw [exec, execCallSubroutine, push_of_full _ h]; rfl

theorem exec_callMachineCode_of_nop (nnn : Addr) (h : s.callmc = .nop) : exec (.callMachineCode nnn) s = .next s := by
  rw [exec, execCallMachineCode, h]; rfl

theorem exec_callMachineCode_of_unsupported (nnn : Addr) (h : s.callmc = .unsupported) :
    exec (.callMachineCode nnn) s = .next (takeFault (.unsupported (zextAddr nnn) s.pc) s) := by
  rw [exec, execCallMachineCode, h]; rfl

theorem exec_waitForKey_of_some (x : Nibble) {j : Nat} (h : s.lowestKey = some j) :
    exec (.waitForKey x) s = .next (s.setReg x (BitVec.ofNat 8 j)) := by
  rw [exec, execWaitForKey, h]; rfl

theorem exec_waitForKey_of_none (x : Nibble) (h : s.lowestKey = none) :
    exec (.waitForKey x) s = s.pcRestore.outcome := by
  rw [exec, execWaitForKey, h]

end

/-! ## What an instruction writes (R21 to R36, R53, R156) -/

/-- `t` is `s` but for state that instruction `i` is listed to write; `running`, the fault latch and the outputs, which
only the taking of a fault writes, are as in `s`. A field that says nothing else is proved by `rfl`. -/
structure WritesOnly (i : Instr) (s t : State) : Prop where
  reg : ∀ r, mayWriteReg i r = false → t.reg r = s.reg r := by intros; rfl
  pc : writesPc i = false → t.pc = s.pc := by intros; rfl
  index : writesIndex i = false → t.i = s.i := by intros; rfl
  mem : storesMemory i = false → t.mem = s.mem := by intros; rfl
  screen : drawsScreen i = false → t.fb = s.fb ∧ t.draw = s.draw := by intros; exact ⟨rfl, rfl⟩
  stack : usesStack i = false → t.stack = s.stack ∧ t.sp = s.sp := by intros; exact ⟨rfl, rfl⟩
  delay : (∀ x, i ≠ .setDelayTimer x) → t.dt = s.dt := by intros; rfl
  sound : (∀ x, i ≠ .setSoundTimer x) → t.st = s.st := by intros; rfl
  rest : t = { s with v := t.v, pc := t.pc, i := t.i, mem := t.mem, fb := t.fb, draw := t.draw, stack := t.stack,
                      sp := t.sp, dt := t.dt, st := t.st } := by rfl

/-- A write of `V[x]` keeps the registers that are not `x`. -/
theorem reg_setReg_of_beq_false (s : State) {x r : Nibble} (b : Byte) (h : (r == x) = false) :
    (s.setReg x b).reg r = s.reg r :=
  reg_setReg_ne s b (by simpa using h)

/-- A write of the flag and of `V[x]` keeps the registers that are neither. -/
theorem reg_writeFlagThen_of_beq_false (s : State) {x r : Nibble} (c b : Byte) (h : (r == x || r == vfIdx) = false) :
    (s.writeFlagThen x c b).reg r = s.reg r := by
  obtain ⟨hx, hf⟩ : r ≠ x ∧ r ≠ vfIdx := by simpa using h
  rw [reg_writeFlagThen, if_neg hx, if_neg hf]

/-- Everything an instruction can do: it writes only what it is listed to write, and where it ends in a fault it is one
of those listed for it. -/
theorem exec_writesOnly (i : Instr) (s : State) :
    ∃ r : Result, exec i s = r.outcome ∧ r.Satisfies (WritesOnly i s) (mayRaise i · = true) := by
  cases i with
  | clearScreen => exact ⟨.done _, rfl, { screen := nofun }⟩
  | ret =>
    by_cases h : s.sp.val = 0
    · exact ⟨.raised _ s, exec_ret_of_empty h, {}, rfl⟩
    · exact ⟨.done _, exec_ret_of_pos h, { pc := nofun, stack := nofun }⟩
  | callMachineCode nnn =>
    cases h : s.callmc with
    | nop => exact ⟨.done s, exec_callMachineCode_of_nop nnn h, {}⟩
    | unsupported => exact ⟨.raised _ s, exec_callMachineCode_of_unsupported nnn h, {}, rfl⟩
  | jump _ | jumpPlusV0 _ => exact ⟨.done _, rfl, { pc := nofun }⟩
  | callSubroutine nnn =>
    by_cases h : s.sp.val < 15
    · exact ⟨.done _, exec_callSubroutine_of_lt nnn h, { pc := nofun, stack := nofun }⟩
    · exact ⟨.raised _ s, exec_callSubroutine_of_full nnn (by omega), {}, rfl⟩
  | skipIfEqualValue _ _ | skipIfNotEqualValue _ _ | skipIfEqualRegister _ _ | skipIfNotEqualRegister _ _ =>
    exact ⟨_, rfl, satisfies_skipIf {} (fun _ => { pc := nofun }) (fun _ => rfl)⟩
  | loadValue _ _ | addValue _ _ | loadRegister _ _ | or _ _ | and _ _ | xor _ _ | randomAnd _ _ | loadDelayTimer _ =>
    exact ⟨.done _, rfl, { reg := fun _ => reg_setReg_of_beq_false s _ }⟩
  | addRegisters _ _ | subtractRegisters _ _ | shiftRight _ | reverseSubtract _ _ | shiftLeft _ =>
    exact ⟨.done _, rfl, { reg := fun _ => reg_writeFlagThen_of_beq_false s _ _ }⟩
  | loadIndex _ | addToIndex _ | loadSpriteLocation _ => exact ⟨.done _, rfl, { index := nofun }⟩
  | drawSprite x y n =>
    exact ⟨_, rfl, satisfies_blitRows
      (fun _ _ _ hv => { reg := fun r hr => hv r (by simpa [mayWriteReg] using hr), screen := nofun })
      (fun _ _ _ => rfl)⟩
  | skipIfKeyPressed _ | skipIfKeyNotPressed _ =>
    exact ⟨_, rfl, satisfies_skipOnKey {} (fun _ => { pc := nofun }) (fun _ => rfl) (fun _ => rfl)⟩
  | waitForKey x =>
    cases h : s.lowestKey with
    | some j => exact ⟨.done _, exec_waitForKey_of_some x h, { reg := fun _ => reg_setReg_of_beq_false s _ }⟩
    | none =>
      exact ⟨_, exec_waitForKey_of_none x h,
        satisfies_pcRestore (fun _ => { pc := nofun }) (fun _ => ⟨{}, rfl⟩)⟩
  | setDelayTimer x => exact ⟨.done _, rfl, { delay := fun h => absurd rfl (h x) }⟩
  | setSoundTimer x => exact ⟨.done _, rfl, { sound := fun h => absurd rfl (h x) }⟩
  | storeBCD _ | storeRegisters _ => exact ⟨_, rfl, satisfies_storeBytes (fun _ _ => { mem := nofun }) rfl⟩
  | loadRegisters x =>
    exact ⟨_, rfl, satisfies_loadRegsFrom (by omega)
      (fun _ hv => { reg := fun r hr => hv r (by simpa [mayWriteReg] using hr) }) rfl⟩

/-! ## The decoder's refusals and operands (R76, R80) -/

/-- A chain of tests ends in an error exactly where every test fails and the end of the chain is that error. -/
theorem ite_ok_eq_error {c : Prop} [Decidable c] {i : Instr} {r : Except DecodeError Instr} {e : DecodeError} :
    (if c then .ok i else r) = .error e ↔ ¬ c ∧ r = .error e := by
  split <;> simp [*]

theorem le_of_decodeSeg0_error {op : Word} {e : DecodeError} (h : decodeSeg0 op = .error e) :
    0x200 ≤ op.toNat % 4096 := by
  simp only [decodeSeg0, ite_ok_eq_error, toNat_opNNN] at h
  omega

theorem contains_of_decodeSeg8_error {op : Word} {e : DecodeError} (h : decodeSeg8 op = .error e) :
    [0x8, 0x9, 0xA, 0xB, 0xC, 0xD, 0xF].contains (op.toNat % 16) = true := by
  unfold decodeSeg8 at h
  rw [toNat_opN] at h
  split at h
  case h_10 =>
    simp only [imp_false] at *
    simp only [List.contains_iff_mem, List.mem_cons, List.not_mem_nil, or_false]
    omega
  all_goals cases h

theorem not_contains_of_decodeSegE_error {op : Word} {e : DecodeError} (h : decodeSegE op = .error e) :
    [0x9E, 0xA1].contains (op.toNat % 256) = false := by
  simp only [decodeSegE, ite_ok_eq_error, ← BitVec.toNat_inj, toNat_opNN] at h
  simp_all

theorem not_contains_of_decodeSegF_error {op : Word} {e : DecodeError} (h : decodeSegF op = .error e) :
    [0x07, 0x0A, 0x15, 0x18, 0x1E, 0x29, 0x33, 0x55, 0x65].contains (op.toNat % 256) = false := by
  simp only [decodeSegF, ite_ok_eq_error, ← BitVec.toNat_inj, toNat_opNN] at h
  simp_all

/-- A word that does not decode is in R80's table. -/
theorem illegalWord_of_decode_error {op : Word} {e : DecodeError} (h : decode op = .error e) :
    illegalWord op = true := by
  have hlt := op.isLt
  unfold decode at h
  rw [toNat_opSeg] at h
  simp only [illegalWord, Bool.or_eq_true, Bool.and_eq_true, beq_iff_eq, decide_eq_true_eq]
  split at h
  case h_1 hseg => exact .inl (.inl (.inl ⟨hseg, le_of_decodeSeg0_error h⟩))
  case h_9 hseg => exact .inl (.inl (.inr ⟨hseg, contains_of_decodeSeg8_error h⟩))
  case h_15 hseg => exact .inl (.inr ⟨hseg, by rw [not_contains_of_decodeSegE_error h]; rfl⟩)
  case h_16 => exact .inr ⟨by simp only [imp_false] at *; omega, by rw [not_contains_of_decodeSegF_error h]; rfl⟩
  all_goals cases h

/-- CallMachineCode is decoded with an address below 0x200 only. -/
theorem callMachineCode_lt_of_decode {op : Word} {nnn : Addr} (h : decode op = .ok (.callMachineCode nnn)) :
    nnn.toNat < 0x200 := by
  unfold decode at h
  split at h
  case h_1 =>
    unfold decodeSeg0 at h
    split_ifs at h with _ _ hlt <;> cases h
    exact hlt
  case h_9 => unfold decodeSeg8 at h; split at h <;> cases h
  case h_15 => unfold decodeSegE at h; split_ifs at h <;> cases h
  case h_16 => unfold decodeSegF at h; split_ifs at h <;> cases h
  all_goals cases h

/-! ## The invariant -/

/-- The invariant speaks of seven fields only. -/
theorem State.Inv.of_eq {s t : State} (h : s.Inv) (hmem : t.mem = s.mem := by simp) (hpc : t.pc = s.pc := by simp)
    (hstack : t.stack = s.stack := by simp) (hrun : t.running = s.running := by simp)
    (hinit : t.initialized = s.initialized := by simp) (hstart : t.started = s.started := by simp)
    (hfault : t.fault = s.fault := by simp) : t.Inv where
  mem_wf := by rw [hmem]; exact h.mem_wf
  pc_le := by rw [hpc]; exact h.pc_le
  stack_lt := by rw [hstack]; exact h.stack_lt
  stack_zero := by rw [hstack]; exact h.stack_zero
  running_ok := by rw [hrun, hinit, hstart, hfault]; exact h.running_ok
  fault_ok := by rw [hfault]; exact h.fault_ok

theorem State.Inv.setPc {s : State} (h : s.Inv) {w : Word} (hw : w.toNat ≤ 0x10FE) : (s.setPc w).Inv :=
  ⟨h.mem_wf, hw, h.stack_lt, h.stack_zero, h.running_ok, h.fault_ok⟩

theorem State.Inv.setMem {s : State} (h : s.Inv) {m : Memory} (hm : m.wf = true) : (s.setMem m).Inv :=
  ⟨hm, h.pc_le, h.stack_lt, h.stack_zero, h.running_ok, h.fault_ok⟩

/-- Taking a truthful fault ends the run (R214). -/
theorem State.Inv.takeFault {s : State} (h : s.Inv) {f : CoreFault} (hf : f.truthful) : (takeFault f s).Inv where
  mem_wf := h.mem_wf
  pc_le := h.pc_le
  stack_lt := h.stack_lt
  stack_zero := h.stack_zero
  running_ok := nofun
  fault_ok := fun _ hg => Option.some.inj hg ▸ hf

/-- The stack after a push (R28). -/
theorem getElem_stack_push (s : State) (p j : Fin 16) (w : Word) :
    ((s.setSp p).setTop w).stack[j.val] = if j.val = p.val then w else s.stack[j.val] := by
  simp only [setTop_stack, setSp_sp, setSp_stack, Vector.getElem_set, eq_comm]

/-- A push of an address below 4096 never reaches entry 0 (R27). -/
theorem State.Inv.push {s : State} (h : s.Inv) {p : Fin 16} {w : Word} (hp : p.val ≠ 0) (hw : w.toNat < 4096) :
    ((s.setSp p).setTop w).Inv where
  mem_wf := h.mem_wf
  pc_le := h.pc_le
  stack_lt := fun j => by
    rw [getElem_stack_push]
    split
    · exact hw
    · exact h.stack_lt j
  stack_zero := (getElem_stack_push s p 0 w).trans ((if_neg (Ne.symm hp)).trans h.stack_zero)
  running_ok := h.running_ok
  fault_ok := h.fault_ok

theorem toNat_zextAddr (nnn : Addr) : (zextAddr nnn).toNat = nnn.toNat := by
  simp only [zextAddr, BitVec.toNat_setWidth]; omega

/-- JumpPlusV0's target is not reduced, and at most 0x10FE (R119, R23). -/
theorem toNat_zextByte_add_zextAddr (b : Byte) (nnn : Addr) :
    (zextByte b + zextAddr nnn).toNat = b.toNat + nnn.toNat := by
  rw [BitVec.toNat_add, toNat_zextAddr, zextByte, BitVec.toNat_setWidth]; omega

/-- Every instruction, run with `pc` advanced as the fetch leaves it (R93), ends in a state of the invariant, with a
truthful fault if it raises one. -/
theorem exec_satisfies_inv {i : Instr} {s : State} (h : s.Inv) (hlo : 2 ≤ s.pc.toNat) (hhi : s.pc.toNat < 4096)
    (hcall : ∀ nnn, i = .callMachineCode nnn → nnn.toNat < 0x200) :
    ∃ r : Result, exec i s = r.outcome ∧ r.Satisfies State.Inv CoreFault.truthful := by
  have hnext (hlt : s.pc.toNat + 2 < 4096) : (s.setPc (s.pc + 2#16)).Inv :=
    h.setPc (by rw [toNat_add_two (by omega)]; omega)
  have haddr (nnn : Addr) : (zextAddr nnn).toNat ≤ 0x10FE := by rw [toNat_zextAddr]; omega
  have hover (hge : 4096 ≤ s.pc.toNat + 2) : (CoreFault.programCounterOverflow s.pc).truthful := ⟨hge, hhi⟩
  have hout : (CoreFault.outOfBounds (max (s.effAddr 0) 4096)).truthful := by
    simp only [CoreFault.truthful, State.effAddr]; omega
  cases i with
  | ret =>
    by_cases hsp : s.sp.val = 0
    · exact ⟨.raised _ s, exec_ret_of_empty hsp, h, trivial⟩
    · have hstack : (s.stack[s.sp.val]).toNat < 4096 := h.stack_lt s.sp
      exact ⟨.done _, exec_ret_of_pos hsp, (h.of_eq (t := s.setSp _)).setPc (by omega)⟩
  | callMachineCode nnn =>
    cases hp : s.callmc with
    | nop => exact ⟨.done s, exec_callMachineCode_of_nop nnn hp, h⟩
    | unsupported =>
      exact ⟨.raised _ s, exec_callMachineCode_of_unsupported nnn hp, h, (toNat_zextAddr nnn).trans_lt (hcall nnn rfl)⟩
  | jump nnn => exact ⟨.done _, rfl, h.setPc (haddr nnn)⟩
  | jumpPlusV0 nnn =>
    exact ⟨.done _, rfl, h.setPc (by rw [toNat_zextByte_add_zextAddr]; omega)⟩
  | callSubroutine nnn =>
    by_cases hsp : s.sp.val < 15
    · exact ⟨.done _, exec_callSubroutine_of_lt nnn hsp, (h.push (Nat.succ_ne_zero _) hhi).setPc (haddr nnn)⟩
    · have hfull : s.sp.val = 15 := by omega
      exact ⟨.raised _ s, exec_callSubroutine_of_full nnn hfull, h, hfull⟩
  | skipIfEqualValue _ _ | skipIfNotEqualValue _ _ | skipIfEqualRegister _ _ | skipIfNotEqualRegister _ _ =>
    exact ⟨_, rfl, satisfies_skipIf h hnext hover⟩
  | skipIfKeyPressed _ | skipIfKeyNotPressed _ => exact ⟨_, rfl, satisfies_skipOnKey h hnext hover id⟩
  | waitForKey x =>
    cases hk : s.lowestKey with
    | some j => exact ⟨.done _, exec_waitForKey_of_some x hk, h.of_eq⟩
    | none =>
      exact ⟨_, exec_waitForKey_of_none x hk,
        satisfies_pcRestore (fun _ => h.setPc (by rw [toNat_sub_two hlo]; omega)) (fun hlt => by omega)⟩
  | drawSprite x y n =>
    exact ⟨_, rfl, satisfies_blitRows (fun _ _ _ _ => h.of_eq)
      (fun a hge hlt => ⟨hge, by simp only [rowCount] at hlt; omega⟩)⟩
  | storeBCD _ | storeRegisters _ => exact ⟨_, rfl, satisfies_storeBytes (fun _ hm => h.setMem (hm h.mem_wf)) hout⟩
  | loadRegisters x => exact ⟨_, rfl, satisfies_loadRegsFrom (by omega) (fun _ _ => h.of_eq) hout⟩
  | clearScreen | loadValue _ _ | addValue _ _ | loadRegister _ _ | or _ _ | and _ _ | xor _ _ | addRegisters _ _
  | subtractRegisters _ _ | shiftRight _ | reverseSubtract _ _ | shiftLeft _ | loadIndex _ | randomAnd _ _
  | loadDelayTimer _ | setDelayTimer _ | setSoundTimer _ | addToIndex _ | loadSpriteLocation _ =>
    exact ⟨.done _, rfl, h.of_eq⟩

/-- A cycle keeps the invariant (R90 to R101, R214). -/
theorem cycle_keeps_inv {s t : State} (h : s.Inv) (ht : cycle s = .next t) : t.Inv := by
  have hkeys : s.sampleKeys.Inv := h.of_eq
  obtain ⟨hpc, hc⟩ | ⟨hpc, hc⟩ | ⟨hpc, op, u, hop, hu, hc⟩ := cycle_cases s
  · obtain rfl := Host.Outcome.next.inj (hc.symm.trans ht)
    exact hkeys.takeFault (by simp only [CoreFault.truthful]; omega)
  · obtain rfl := Host.Outcome.next.inj (hc.symm.trans ht)
    exact hkeys.takeFault ⟨by omega, by omega⟩
  · have hnext : (s.pc + 2#16).toNat = s.pc.toNat + 2 := toNat_add_two (by omega)
    have hupc : u.pc.toNat = s.pc.toNat + 2 := by rw [hu, setPc_pc, hnext]
    have huinv : u.Inv := hu ▸ hkeys.setPc (by omega)
    obtain ⟨e, hd, hc⟩ | ⟨i, v, hd, hv, hc⟩ := hc
    · obtain rfl := Host.Outcome.next.inj (hc.symm.trans ht)
      exact huinv.takeFault (illegalWord_of_decode_error hd)
    · obtain rfl := Host.Outcome.next.inj (hc.symm.trans ht)
      have hvinv : v.Inv := by
        have hexec := exec_satisfies_inv (i := i) huinv (by omega) (by omega)
          (fun nnn hi => callMachineCode_lt_of_decode (hi ▸ hd))
        obtain hdone | ⟨f, w, rfl, hw, hf⟩ := next_cases_of_satisfies hexec hv
        · exact hdone
        · exact hw.takeFault hf
      exact hvinv.of_eq

/-- The invariant holds at reset. -/
theorem reset_inv : State.reset.Inv where
  mem_wf := rfl
  pc_le := Nat.zero_le _
  stack_lt := by decide
  stack_zero := rfl
  running_ok := nofun
  fault_ok := nofun

/-! ### The commands of the host (R241 to R249) -/

theorem State.Inv.answer {s : State} (h : s.Inv) (r : HostReply) : (s.answer r).Inv := h.of_eq

theorem hostInitialize_keeps_inv {s : State} (h : s.Inv) (rom : List Byte) : (hostInitialize rom s).Inv := by
  cases hr : s.running with
  | true => rw [hostInitialize_of_running hr]; exact h.answer _
  | false =>
    by_cases hl : rom.length ≤ 3584
    · rw [hostInitialize_of_le hr hl]
      exact (reset_inv.setMem (wf_loadedMemory s.font hl)).of_eq
    · rw [hostInitialize_of_gt hr (by omega)]; exact h.answer _

theorem hostStart_keeps_inv {s : State} (h : s.Inv) : (hostStart s).Inv := by
  cases hr : s.running with
  | true => rw [hostStart_of_running hr]; exact h.answer _
  | false =>
    by_cases hf : s.fault = none
    · cases hi : s.initialized with
      | false => rw [hostStart_of_uninitialized hr hi]; exact h.answer _
      | true =>
        rw [hostStart_of_ok hr hf hi]
        exact {
          mem_wf := h.mem_wf
          pc_le := by
            show (if s.started then s.pc else Config.entry).toNat ≤ 0x10FE
            split
            · exact h.pc_le
            · decide
          stack_lt := h.stack_lt
          stack_zero := h.stack_zero
          running_ok := fun _ => ⟨hi, rfl, hf⟩
          fault_ok := h.fault_ok }
    · rw [hostStart_of_fault hr hf]; exact h.answer _

theorem hostStop_keeps_inv {s : State} (h : s.Inv) : (hostStop s).Inv := by
  cases hr : s.running with
  | true =>
    rw [hostStop_of_running hr]
    exact ⟨h.mem_wf, h.pc_le, h.stack_lt, h.stack_zero, nofun, h.fault_ok⟩
  | false => rw [hostStop_of_stopped hr]; exact h.answer _

theorem hostLoad_keeps_inv {s : State} (h : s.Inv) (bytes : List Byte) (offset : Nat) :
    (hostLoad bytes offset s).Inv := by
  cases hr : s.running with
  | true => rw [hostLoad_of_running hr]; exact h.answer _
  | false =>
    by_cases hl : offset + bytes.length ≤ 4096
    · rw [hostLoad_of_le hr hl]
      exact (h.setMem (wf_writeBytes bytes h.mem_wf hl)).of_eq
    · rw [hostLoad_of_gt hr (by omega)]; exact h.answer _

theorem hostSetKeyState_keeps_inv {s : State} (h : s.Inv) (index : Nat) (pressed : Bool) :
    (hostSetKeyState index pressed s).Inv := by
  cases hr : s.running with
  | true => rw [hostSetKeyState_of_running hr]; exact h.answer _
  | false =>
    by_cases hj : index < 16
    · rw [hostSetKeyState_of_lt hr hj]; exact h.of_eq
    · rw [hostSetKeyState_of_ge (by omega)]; exact h.answer _

theorem serveCommand_keeps_inv {s : State} (h : s.Inv) : ∀ c, (serveCommand c s).Inv
  | .initRom rom => hostInitialize_keeps_inv h rom
  | .start => hostStart_keeps_inv h
  | .stop => hostStop_keeps_inv h
  | .load bytes offset => hostLoad_keeps_inv h bytes offset
  | .setKeyState index pressed => hostSetKeyState_keeps_inv h index pressed

/-- A step is a command served or a cycle, between two changes of the inputs and outputs alone. -/
theorem step_keeps_inv {s t : State} (h : s.Inv) (ht : step s = .next t) : t.Inv := by
  have hclear : s.clearOutputs.Inv := h.of_eq
  obtain ⟨c, -, rfl⟩ | ⟨-, -, -, u, hu, rfl⟩ := step_next_cases ht
  · exact (serveCommand_keeps_inv hclear c).of_eq
  · exact (cycle_keeps_inv hclear hu).of_eq

/-! ## The reset values (R41) -/

theorem reset_reg (r : Nibble) : State.reset.reg r = 0x00#8 := by simp [State.reg, State.reset]

theorem reset_stack (j : Fin 16) : State.reset.stack[j.val] = 0x0000#16 := by simp [State.reset]

theorem reset_pixel (y x : Nat) : State.reset.fb.pixel y x = false := pixel_clear y x

theorem reset_key (j : Nat) (h : j < 16) : State.reset.key j = false := List.getD_replicate false h

/-- Memory at reset is the default font and zeroes (R55). -/
theorem reset_read (a : Nat) : State.reset.mem.read a = if a < 80 then defaultFont.getD a 0x00#8 else 0x00#8 := by
  show initialByte a = _
  split
  · rfl
  · exact initialByte_of_ge (by omega)

end Sys2Proof.Machine

section
open Sys2Proof Sys2Proof.Machine

/-- Settles O14: each command of the host and each cycle keeps the invariant. -/
theorem stepKeepsInvariant : Obligations.StepKeepsInvariant :=
  fun _ _ h ht => step_keeps_inv h ht

/-- Settles O44: by `exec_writesOnly` the instruction writes what it is listed to write, and a fault it takes is one
listed for it. -/
theorem onlyListedInstructionsWrite : Obligations.OnlyListedInstructionsWrite := by
  intro i s t ht
  have same {u : State} (hm : storesMemory i = false → u.mem = s.mem) (hs : storesMemory i = false) :
      u.mem = s.mem ∧ SameMemory s u := ⟨hm hs, fun a => by rw [hm hs]⟩
  obtain h | ⟨f, u, rfl, h, hf⟩ := next_cases_of_satisfies (exec_writesOnly i s) ht
  · rw [h.rest]
    exact ⟨h.reg, h.pc, h.index, same h.mem, h.screen, h.stack, h.delay, h.sound, fun _ => ⟨rfl, rfl, rfl⟩,
      rfl, rfl, rfl, rfl, rfl, rfl, rfl, rfl⟩
  · have hno (hnone : ∀ g, mayRaise i g = false) : False := by simp [hnone f] at hf
    rw [h.rest]
    exact ⟨h.reg, h.pc, h.index, same h.mem, h.screen, h.stack, h.delay, h.sound, fun hnone => (hno hnone).elim,
      rfl, rfl, rfl, rfl, rfl, rfl, rfl, rfl⟩

/-- Settles O48: the one command `Initialize`, on a ROM that is too long and on one that fits. -/
theorem initializeResets : Obligations.InitializeResets := by
  intro s rom hc hr
  have hr' : s.clearOutputs.running = false := hr
  rw [step_of_command hc, serveCommand]
  refine ⟨fun hl => ?_, fun hl => ?_⟩
  · rw [hostInitialize_of_gt hr' hl]; rfl
  · rw [hostInitialize_of_le hr' hl]
    exact ⟨_, rfl, reset_reg, rfl, rfl, rfl, reset_stack, rfl, rfl, reset_pixel, reset_key, rfl, rfl, rfl,
      rfl, fun a _ => read_loadedMemory s.font rom a⟩

/-- Settles O13. -/
theorem invariantHoldsAtReset : Obligations.InvariantHoldsAtReset := reset_inv

/-- Settles O15. -/
theorem resetStateValues : Obligations.ResetStateValues :=
  ⟨reset_reg, rfl, rfl, rfl, reset_stack, rfl, rfl, reset_pixel, reset_key, rfl, rfl, rfl, rfl, reset_read⟩

/-- Settles O16: inside the bounds neither move wraps. -/
theorem nextAndRestoreStepPc : Obligations.NextAndRestoreStepPc := by
  intro s
  exact ⟨fun h => ⟨_, pcNext_of_lt h, toNat_add_two (by omega), rfl, fun _ => rfl⟩, pcNext_of_ge,
    fun h => ⟨_, pcRestore_of_le h, toNat_sub_two h, rfl, fun _ => rfl⟩, pcRestore_of_lt⟩

/-- Settles O17. -/
theorem pushAndPopMoveTheStack : Obligations.PushAndPopMoveTheStack := by
  intro s w
  exact ⟨fun h => ⟨_, push_of_lt w h, rfl, fun j => getElem_stack_push s _ j w, rfl, fun _ => rfl⟩, push_of_full w,
    fun h => ⟨_, pop_of_pos (by omega), rfl, rfl, fun _ => rfl⟩, pop_of_empty⟩

/-- Settles O22: the return pops the slot that the call has just pushed. -/
theorem callThenReturnResumes : Obligations.CallThenReturnResumes := by
  intro s nnn h
  refine ⟨_, _, exec_callSubroutine_of_lt nnn h, exec_ret_of_pos (Nat.succ_ne_zero _), ?_, rfl, rfl, fun _ => rfl⟩
  exact (getElem_stack_push s _ _ s.pc).trans (if_pos rfl)

end
end

section
/-! PROOFS. A byte of memory read after it was written (O35), and a word that StoreRegisters writes over the next
instruction (O36). -/

namespace Sys2Proof.Machine

variable (s : State) (x : Nibble)

/-! ## The block of StoreRegisters (R154) -/

theorem length_regsUpTo : (s.regsUpTo x).length = x.toNat + 1 := by
  rw [State.regsUpTo, List.length_take, Vector.length_toList]; omega

/-- Byte `k` of the block is `V[k]`. -/
theorem getD_regsUpTo {k : Nat} (h : k ≤ x.toNat) (d : Byte) : (s.regsUpTo x).getD k d = s.reg (BitVec.ofNat 4 k) := by
  have hk : k < 16 := by omega
  have hmod : (BitVec.ofNat 4 k).toNat = k := Nat.mod_eq_of_lt hk
  rw [List.getD_eq_getElem _ _ (by rw [length_regsUpTo]; omega)]
  simp [State.regsUpTo, State.reg, hmod]

/-- A byte of memory after the whole block was written at `a`. -/
theorem read_writeBytes_regsUpTo (m : Memory) (a c : Nat) :
    (m.writeBytes a (s.regsUpTo x)).read c =
      if a ≤ c ∧ c ≤ a + x.toNat then s.reg (BitVec.ofNat 4 (c - a)) else m.read c := by
  rw [read_writeBytes, length_regsUpTo]
  by_cases h : a ≤ c ∧ c ≤ a + x.toNat
  · rw [if_pos (by omega), if_pos h, getD_regsUpTo s x (by omega)]
  · rw [if_neg (by omega), if_neg h]

variable {s x}

/-- StoreRegisters whose block lies inside memory. -/
theorem exec_storeRegisters_of_lt (h : s.i.toNat + x.toNat < 4096) :
    exec (.storeRegisters x) s = .next (s.setMem (s.mem.writeBytes s.i.toNat (s.regsUpTo x))) := by
  have hfit : s.i.toNat + (s.regsUpTo x).length ≤ 4096 := by rw [length_regsUpTo]; omega
  show (s.storeBytes s.i.toNat (s.regsUpTo x)).outcome = _
  rw [storeBytes_of_le _ hfit]; rfl

/-- A byte other than the one written reads as before, inside memory and outside it. -/
theorem readByte_setMem_write_of_ne {a c : Nat} (b : Byte) (h : c ≠ a) :
    (s.setMem (s.mem.write a b)).readByte c = s.readByte c := by
  simp only [State.readByte, setMem_mem, read_write, if_neg h]

end Sys2Proof.Machine

section
open Sys2Proof Sys2Proof.Machine

/-- Settles O36: both bytes at `pc` lie in the block just written, so the fetch reads the two registers stored there. -/
theorem storedWordIsFetched : Obligations.StoredWordIsFetched := by
  intro s x hblock hlow hhigh
  refine ⟨_, _, exec_storeRegisters_of_lt hblock, fetchWord_of_lt (by rw [setMem_pc]; omega), ?_⟩
  rw [toNat_wordOfBytes, setMem_mem, setMem_pc, read_writeBytes_regsUpTo, read_writeBytes_regsUpTo,
    if_pos (by omega), if_pos (by omega)]

/-- Settles O35: the check of the address decides, and a write inside memory is read back by `read_write`. -/
theorem byteReadAfterWrite : Obligations.ByteReadAfterWrite := by
  intro s a b
  refine ⟨fun h => ⟨_, writeByte_of_lt b h, rfl, ?_, fun c hc => readByte_setMem_write_of_ne b hc⟩,
    fun h => ⟨writeByte_of_ge b h, readByte_of_ge h⟩⟩
  rw [readByte_of_lt h, setMem_mem, read_write, if_pos rfl]

end
end

section
/-! PROOFS. Every instruction's word has its row's fixed bits, from the lemmas of Laws/PerInstr. -/

namespace Sys2Proof.Laws.Matches

theorem encode_and_mask : ∀ i : Instr, encode i &&& i.mask = i.matchBits
  | .clearScreen => clearScreen
  | .ret => ret
  | .callMachineCode nnn => callMachineCode nnn
  | .jump nnn => jump nnn
  | .callSubroutine nnn => callSubroutine nnn
  | .skipIfEqualValue x nn => skipIfEqualValue x nn
  | .skipIfNotEqualValue x nn => skipIfNotEqualValue x nn
  | .skipIfEqualRegister x y => skipIfEqualRegister x y
  | .loadValue x nn => loadValue x nn
  | .addValue x nn => addValue x nn
  | .loadRegister x y => loadRegister x y
  | .or x y => or x y
  | .and x y => and x y
  | .xor x y => xor x y
  | .addRegisters x y => addRegisters x y
  | .subtractRegisters x y => subtractRegisters x y
  | .shiftRight x => shiftRight x
  | .reverseSubtract x y => reverseSubtract x y
  | .shiftLeft x => shiftLeft x
  | .skipIfNotEqualRegister x y => skipIfNotEqualRegister x y
  | .loadIndex nnn => loadIndex nnn
  | .jumpPlusV0 nnn => jumpPlusV0 nnn
  | .randomAnd x nn => randomAnd x nn
  | .drawSprite x y n => drawSprite x y n
  | .skipIfKeyPressed x => skipIfKeyPressed x
  | .skipIfKeyNotPressed x => skipIfKeyNotPressed x
  | .loadDelayTimer x => loadDelayTimer x
  | .waitForKey x => waitForKey x
  | .setDelayTimer x => setDelayTimer x
  | .setSoundTimer x => setSoundTimer x
  | .addToIndex x => addToIndex x
  | .loadSpriteLocation x => loadSpriteLocation x
  | .storeBCD x => storeBCD x
  | .storeRegisters x => storeRegisters x
  | .loadRegisters x => loadRegisters x

end Sys2Proof.Laws.Matches
end

section
/-! PROOFS. The decoder and the encoder invert each other (O1, O2), the words the decoder refuses (O3), and words written
out from the spec (O4). -/

namespace Sys2Proof

/-! ## The segments whose instructions more bits tell apart (R76 to R79) -/

section
variable {op : Word}

theorem decode_of_seg0 (h : (opSeg op).toNat = 0x0) : decode op = decodeSeg0 op := by rw [decode, h]; rfl
theorem decode_of_seg8 (h : (opSeg op).toNat = 0x8) : decode op = decodeSeg8 op := by rw [decode, h]; rfl
theorem decode_of_segE (h : (opSeg op).toNat = 0xE) : decode op = decodeSegE op := by rw [decode, h]; rfl
theorem decode_of_segF (h : (opSeg op).toNat = 0xF) : decode op = decodeSegF op := by rw [decode, h]; rfl

end

/-! ## Decoding an encoded instruction (R74, R83) -/

theorem callMcAddrOk_iff {nnn : Addr} :
    callMcAddrOk nnn = true ↔ nnn.toNat < 0x200 ∧ nnn ≠ 0x0E0#12 ∧ nnn ≠ 0x0EE#12 := by
  simp [callMcAddrOk, and_assoc]

/-- In segment 0 the address is the whole word. -/
theorem encAddr_zero_inj {a b : Addr} : encAddr 0x0#4 a = encAddr 0x0#4 b ↔ a = b :=
  ⟨fun h => by simpa using congrArg opNNN h, congrArg _⟩

/-- A well-formed CallMachineCode is neither of the two whole words that segment 0 tests first (R76). -/
theorem decode_encode_callMachineCode {nnn : Addr} (h : callMcAddrOk nnn = true) :
    decode (encAddr 0x0#4 nnn) = .ok (.callMachineCode nnn) := by
  obtain ⟨hlt, hclear, hret⟩ := callMcAddrOk_iff.mp h
  have hclear' : encAddr 0x0#4 nnn ≠ 0x00E0#16 := mt (encAddr_zero_inj (b := 0x0E0#12)).mp hclear
  have hret' : encAddr 0x0#4 nnn ≠ 0x00EE#16 := mt (encAddr_zero_inj (b := 0x0EE#12)).mp hret
  rw [decode_of_seg0 (by simp), decodeSeg0, if_neg hclear', if_neg hret', opNNN_encAddr, if_pos hlt]

theorem decode_encode {i : Instr} (h : i.wf = true) : decode (encode i) = .ok i := by
  cases i with
  | clearScreen | ret => rfl
  | callMachineCode nnn => exact decode_encode_callMachineCode h
  | jump _ | callSubroutine _ | loadIndex _ | jumpPlusV0 _ | skipIfEqualValue _ _ | skipIfNotEqualValue _ _
  | skipIfEqualRegister _ _ | skipIfNotEqualRegister _ _ | loadValue _ _ | addValue _ _ | randomAnd _ _
  | drawSprite _ _ _ => simp [encode, decode]
  | loadRegister _ _ | or _ _ | and _ _ | xor _ _ | addRegisters _ _ | subtractRegisters _ _ | shiftRight _
  | reverseSubtract _ _ | shiftLeft _ => rw [encode, decode_of_seg8 (by simp)]; simp [decodeSeg8]
  | skipIfKeyPressed _ | skipIfKeyNotPressed _ => rw [encode, decode_of_segE (by simp)]; simp [decodeSegE]
  | loadDelayTimer _ | waitForKey _ | setDelayTimer _ | setSoundTimer _ | addToIndex _ | loadSpriteLocation _
  | storeBCD _ | storeRegisters _ | loadRegisters _ => rw [encode, decode_of_segF (by simp)]; simp [decodeSegF]

/-- The byte decoder reads the word its first two bytes make (R50). -/
theorem decodeBytes_of_decode {op : Word} {i : Instr} (h : decode op = .ok i) (rest : List Byte) :
    decodeBytes (highByte op :: lowByte op :: rest) = .ok (i, rest) := by
  simp [decodeBytes, h]

/-! ## Encoding a decoded instruction (R75)

A word is assembled again from its fields; with 0 in place of an ignored nibble, it is the word with that nibble
cleared. -/

section
variable {op : Word} {g : Nibble}

theorem and_FFFF (op : Word) : op &&& 0xFFFF#16 = op := BitVec.and_allOnes
theorem and_F (x : Nibble) : x &&& 0xF#4 = x := BitVec.and_allOnes

theorem encAddr_of_fields (hg : opSeg op = g) : encAddr g (opNNN op) = op &&& 0xFFFF#16 := by
  subst hg
  apply BitVec.eq_of_toNat_eq
  rw [and_FFFF, toNat_encAddr, toNat_opSeg, toNat_opNNN]; omega

theorem encXNN_of_fields {nn : Byte} (hg : opSeg op = g) (hnn : opNN op = nn) :
    encXNN g (opX op) nn = op &&& 0xFFFF#16 := by
  subst hg hnn
  apply BitVec.eq_of_toNat_eq
  rw [and_FFFF, toNat_encXNN, toNat_opSeg, toNat_opX, toNat_opNN]; omega

theorem encXYN_of_fields {n : Nibble} (hg : opSeg op = g) (hn : opN op = n) :
    encXYN g (opX op) (opY op) n = op &&& 0xFFFF#16 := by
  subst hg hn
  apply BitVec.eq_of_toNat_eq
  rw [and_FFFF, toNat_encXYN, toNat_opSeg, toNat_opX, toNat_opY, toNat_opN]; omega

/-- A mask of whole nibbles acts nibble by nibble. -/
theorem encXYN_and_encXYN (g x y n g' x' y' n' : Nibble) :
    encXYN g x y n &&& encXYN g' x' y' n' = encXYN (g &&& g') (x &&& x') (y &&& y') (n &&& n') := by
  have h : (g ++ x ++ y ++ n) &&& (g' ++ x' ++ y' ++ n') = (g &&& g') ++ (x &&& x') ++ (y &&& y') ++ (n &&& n') := by
    simp only [BitVec.and_append]
  exact h

theorem encXYN_and_FFF0 (g x y n : Nibble) : encXYN g x y n &&& 0xFFF0#16 = encXYN g x y 0x0#4 := by
  have h := encXYN_and_encXYN g x y n 0xF#4 0xF#4 0xF#4 0x0#4
  rwa [and_F, and_F, and_F, BitVec.and_zero] at h

theorem encXYN_and_FF0F (g x y n : Nibble) : encXYN g x y n &&& 0xFF0F#16 = encXYN g x 0x0#4 n := by
  have h := encXYN_and_encXYN g x y n 0xF#4 0xF#4 0x0#4 0xF#4
  rwa [and_F, and_F, and_F, BitVec.and_zero] at h

theorem encXYN_clear_n (hg : opSeg op = g) : encXYN g (opX op) (opY op) 0x0#4 = op &&& 0xFFF0#16 := by
  rw [← encXYN_and_FFF0 _ _ _ (opN op), encXYN_of_fields hg rfl, and_FFFF]

theorem encXYN_clear_y {n : Nibble} (hg : opSeg op = g) (hn : opN op = n) :
    encXYN g (opX op) 0x0#4 n = op &&& 0xFF0F#16 := by
  rw [← encXYN_and_FF0F _ _ (opY op), encXYN_of_fields hg hn, and_FFFF]

end

/-! What is known of an instruction read from `op`, in each segment: it is well-formed, and the bits it uses are those
of `op`. -/

theorem wf_and_encode_of_decodeSeg0 {op : Word} {i : Instr} (hseg : (opSeg op).toNat = 0x0)
    (h : decodeSeg0 op = .ok i) : i.wf = true ∧ encode i = op &&& i.usedBits := by
  have henc : encAddr 0x0#4 (opNNN op) = op &&& 0xFFFF#16 := encAddr_of_fields (BitVec.eq_of_toNat_eq hseg)
  have hword : encAddr 0x0#4 (opNNN op) = op := henc.trans (and_FFFF op)
  unfold decodeSeg0 at h
  split_ifs at h with hclear hret hlt
  · cases h; exact ⟨rfl, hclear ▸ rfl⟩
  · cases h; exact ⟨rfl, hret ▸ rfl⟩
  · cases h
    refine ⟨callMcAddrOk_iff.mpr ⟨hlt, fun hn => hclear ?_, fun hn => hret ?_⟩, henc⟩
    · rw [← hword, hn]; rfl
    · rw [← hword, hn]; rfl

theorem wf_and_encode_of_decodeSeg8 {op : Word} {i : Instr} (hseg : (opSeg op).toNat = 0x8)
    (h : decodeSeg8 op = .ok i) : i.wf = true ∧ encode i = op &&& i.usedBits := by
  have hg : opSeg op = 0x8#4 := BitVec.eq_of_toNat_eq hseg
  unfold decodeSeg8 at h
  split at h
  case h_7 hn | h_9 hn => cases h; exact ⟨rfl, encXYN_clear_y hg (BitVec.eq_of_toNat_eq hn)⟩
  case h_10 => cases h
  case h_1 hn | h_2 hn | h_3 hn | h_4 hn | h_5 hn | h_6 hn | h_8 hn =>
    cases h; exact ⟨rfl, encXYN_of_fields hg (BitVec.eq_of_toNat_eq hn)⟩

theorem wf_and_encode_of_decodeSegE {op : Word} {i : Instr} (hseg : (opSeg op).toNat = 0xE)
    (h : decodeSegE op = .ok i) : i.wf = true ∧ encode i = op &&& i.usedBits := by
  have hg : opSeg op = 0xE#4 := BitVec.eq_of_toNat_eq hseg
  unfold decodeSegE at h
  split_ifs at h with hnn hnn <;> cases h <;> exact ⟨rfl, encXNN_of_fields hg hnn⟩

theorem wf_and_encode_of_decodeSegF {op : Word} {i : Instr} (hseg : (opSeg op).toNat = 0xF)
    (h : decodeSegF op = .ok i) : i.wf = true ∧ encode i = op &&& i.usedBits := by
  have hg : opSeg op = 0xF#4 := BitVec.eq_of_toNat_eq hseg
  unfold decodeSegF at h
  split_ifs at h <;> cases h <;> exact ⟨rfl, encXNN_of_fields hg ‹_›⟩

theorem wf_and_encode_of_decode {op : Word} {i : Instr} (h : decode op = .ok i) :
    i.wf = true ∧ encode i = op &&& i.usedBits := by
  unfold decode at h
  split at h
  case h_1 hseg => exact wf_and_encode_of_decodeSeg0 hseg h
  case h_9 hseg => exact wf_and_encode_of_decodeSeg8 hseg h
  case h_15 hseg => exact wf_and_encode_of_decodeSegE hseg h
  case h_16 => exact wf_and_encode_of_decodeSegF (by simp only [imp_false] at *; omega) h
  case h_2 hseg | h_3 hseg | h_11 hseg | h_12 hseg =>
    cases h; exact ⟨rfl, encAddr_of_fields (BitVec.eq_of_toNat_eq hseg)⟩
  case h_4 hseg | h_5 hseg | h_7 hseg | h_8 hseg | h_13 hseg =>
    cases h; exact ⟨rfl, encXNN_of_fields (BitVec.eq_of_toNat_eq hseg) rfl⟩
  case h_6 hseg | h_10 hseg => cases h; exact ⟨rfl, encXYN_clear_n (BitVec.eq_of_toNat_eq hseg)⟩
  case h_14 hseg => cases h; exact ⟨rfl, encXYN_of_fields (BitVec.eq_of_toNat_eq hseg) rfl⟩

/-- The fixed bits of a row are bits its instructions use. -/
theorem usedBits_and_mask (i : Instr) : i.usedBits &&& i.mask = i.mask := by
  cases i with
  | skipIfEqualRegister _ _ | skipIfNotEqualRegister _ _ =>
    exact (by decide : 0xFFF0#16 &&& 0xF000#16 = 0xF000#16)
  | shiftRight _ | shiftLeft _ => exact (by decide : 0xFF0F#16 &&& 0xF00F#16 = 0xF00F#16)
  | _ => exact (BitVec.and_comm _ _).trans (and_FFFF _)

/-! ## The refused words (R80) -/

section
open Machine
variable {op : Word}

theorem decodeSeg0_eq_error (h : 0x200 ≤ op.toNat % 4096) : decodeSeg0 op = .error (.unknownOpcode op) := by
  have hclear : op ≠ 0x00E0#16 := by rintro rfl; exact absurd h (by decide)
  have hret : op ≠ 0x00EE#16 := by rintro rfl; exact absurd h (by decide)
  rw [decodeSeg0, if_neg hclear, if_neg hret, toNat_opNNN, if_neg (by omega)]

theorem decodeSeg8_eq_error (h : [0x8, 0x9, 0xA, 0xB, 0xC, 0xD, 0xF].contains (op.toNat % 16) = true) :
    decodeSeg8 op = .error (.unknownOpcode op) := by
  unfold decodeSeg8
  rw [toNat_opN]
  split
  case h_10 => rfl
  case h_1 hn | h_2 hn | h_3 hn | h_4 hn | h_5 hn | h_6 hn | h_7 hn | h_8 hn | h_9 hn =>
    rw [hn] at h; exact absurd h (by decide)

theorem decodeSegE_eq_error (h : [0x9E, 0xA1].contains (op.toNat % 256) = false) :
    decodeSegE op = .error (.unknownOpcode op) := by
  simp only [decodeSegE, ite_ok_eq_error, ← BitVec.toNat_inj, toNat_opNN]
  simp_all

theorem decodeSegF_eq_error
    (h : [0x07, 0x0A, 0x15, 0x18, 0x1E, 0x29, 0x33, 0x55, 0x65].contains (op.toNat % 256) = false) :
    decodeSegF op = .error (.unknownOpcode op) := by
  simp only [decodeSegF, ite_ok_eq_error, ← BitVec.toNat_inj, toNat_opNN]
  simp_all

theorem decode_of_illegalWord (h : illegalWord op = true) : decode op = .error (.unknownOpcode op) := by
  simp only [illegalWord, Bool.or_eq_true, Bool.and_eq_true, beq_iff_eq, decide_eq_true_eq, ← toNat_opSeg,
    Bool.not_eq_true'] at h
  obtain ((⟨hseg, hrow⟩ | ⟨hseg, hrow⟩) | ⟨hseg, hrow⟩) | ⟨hseg, hrow⟩ := h
  · rw [decode_of_seg0 hseg, decodeSeg0_eq_error hrow]
  · rw [decode_of_seg8 hseg, decodeSeg8_eq_error hrow]
  · rw [decode_of_segE hseg, decodeSegE_eq_error hrow]
  · rw [decode_of_segF hseg, decodeSegF_eq_error hrow]

end

end Sys2Proof

section
open Sys2Proof Sys2Proof.Machine

/-- Settles O1: `decode_encode`, on the word and on the word its two bytes make. -/
theorem decodeInvertsEncode : Obligations.DecodeInvertsEncode := by
  intro i rest h
  exact ⟨decode_encode h, decodeBytes_of_decode (decode_encode h) rest⟩

/-- Settles O2: the fixed bits of `op` are those of `encode i`, since the two agree in the bits `i` uses. -/
theorem decodeMatchesOpcodeTable : Obligations.DecodeMatchesOpcodeTable := by
  intro op i h
  obtain ⟨hwf, henc⟩ := wf_and_encode_of_decode h
  have hbits : op &&& i.mask = i.matchBits :=
    calc op &&& i.mask = op &&& i.usedBits &&& i.mask := by rw [BitVec.and_assoc, usedBits_and_mask]
      _ = encode i &&& i.mask := by rw [henc]
      _ = i.matchBits := Laws.Matches.encode_and_mask i
  exact ⟨hwf, hbits, henc⟩

/-- Settles O3: a word that does not decode is in R80's table, and every word of the table is refused. -/
theorem illegalWordsExactly : Obligations.IllegalWordsExactly := by
  intro op
  refine ⟨decode_of_illegalWord, fun hlegal => ?_⟩
  cases hd : decode op with
  | ok i => exact ⟨i, rfl⟩
  | error e => simp [illegalWord_of_decode_error hd] at hlegal

/-- Settles O4, by running the decoder on the sixteen words. -/
theorem writtenOutWordsDecode : Obligations.WrittenOutWordsDecode := by
  unfold Obligations.WrittenOutWordsDecode
  decide

end
end

section
/-! PROOFS. The cycle of a core that can take one: the instruction it runs and how it ends (O5, O8, O12), the faults of
the fetch and of the decoder (O6, O7), the key sample (O11), the core that takes no step (O10), the render port (O40),
and that RandomAnd alone reads the ports (O47). -/

namespace Sys2Proof.Machine

variable {s : State}

/-! ## The step of a core that can take a cycle -/

theorem step_of_canCycle (h : s.canCycle) : step s = advanceOutcome (cycle s.clearOutputs) := by
  obtain ⟨hr, hf, hc⟩ := h
  exact step_of_cycle hr hf hc

/-- The step of a core whose word at `pc` is decoded: the executor finds the state `atExecute`. -/
theorem step_of_canCycle_of_le (h : s.canCycle) (hpc : s.pc.toNat ≤ 4093) :
    step s = advanceOutcome
      (decodeAndExecute (wordOfBytes (s.mem.read s.pc.toNat) (s.mem.read (s.pc.toNat + 1))) s.atExecute) := by
  rw [step_of_canCycle h, cycle_of_le (s := s.clearOutputs) hpc]; rfl

/-- A step runs the instruction it fetches, then the end of the cycle (R95 to R101). -/
theorem step_of_fetches {i : Instr} {t : State} (h : s.canCycle) (hi : s.fetches i)
    (ht : exec i s.atExecute = .next t) : step s = .next t.endCycle.advanceInputs := by
  obtain ⟨hpc, hd⟩ := hi
  rw [step_of_canCycle_of_le h hpc, decodeAndExecute, hd]
  show advanceOutcome (closeCycle (exec i s.atExecute)) = _
  rw [ht]; rfl

/-! ## What an instruction keeps -/

/-- Whether it faults or not, an instruction keeps the key sample of its cycle (R96). -/
theorem exec_keeps_k {i : Instr} {t : State} (ht : exec i s = .next t) : t.k = s.k := by
  obtain h | ⟨f, u, rfl, h, -⟩ := next_cases_of_satisfies (exec_writesOnly i s) ht
  · rw [h.rest]
  · rw [takeFault_k, h.rest]

/-- An instruction that ends with no fault latched took none. -/
theorem exec_writesOnly_of_no_fault {i : Instr} {t : State} (ht : exec i s = .next t) (hf : t.fault = none) :
    WritesOnly i s t := by
  obtain h | ⟨f, u, rfl, -, -⟩ := next_cases_of_satisfies (exec_writesOnly i s) ht
  · exact h
  · cases hf

/-- After every cycle the key flags are the sample taken in its step 1 (R91, R96). -/
theorem cycle_keeps_sample {t : State} (ht : cycle s = .next t) : t.k = s.sampleKeys.k := by
  obtain ⟨-, hc⟩ | ⟨-, hc⟩ | ⟨-, op, u, -, hu, hc⟩ := cycle_cases s
  · obtain rfl := Host.Outcome.next.inj (hc.symm.trans ht); rfl
  · obtain rfl := Host.Outcome.next.inj (hc.symm.trans ht); rfl
  · have huk : u.k = s.sampleKeys.k := by rw [hu, setPc_k]
    obtain ⟨e, -, hc⟩ | ⟨i, v, -, hv, hc⟩ := hc
    · obtain rfl := Host.Outcome.next.inj (hc.symm.trans ht); exact huk
    · obtain rfl := Host.Outcome.next.inj (hc.symm.trans ht)
      rw [endCycle_k, exec_keeps_k hv, huk]

/-! ## The end of a cycle that did not fault (R97 to R101) -/

section
variable {t : State} (h : t.fault = none)
include h

theorem toNat_endCycle_dt : t.endCycle.dt.toNat = t.dt.toNat - 1 := by
  rw [endCycle_of_none t h, soundBeep_dt, tickTimers_dt, notify_dt, toNat_tickTimer]

theorem toNat_endCycle_st : t.endCycle.st.toNat = t.st.toNat - 1 := by
  rw [endCycle_of_none t h, soundBeep_st, tickTimers_st, notify_st, toNat_tickTimer]

theorem endCycle_draw : t.endCycle.draw = false := by
  rw [endCycle_of_none t h, soundBeep_draw, tickTimers_draw, notify_draw]

/-- The strobes of the end of a cycle, in their order (R97). -/
theorem endCycle_out :
    t.endCycle.out = t.out ++ ([.updated] ++ (if t.draw then [.frameReady] else []) ++
      (if t.endCycle.st.toNat > 0 then [.beep] else [])) := by
  rw [endCycle_of_none t h, soundBeep_out, soundBeep_st, tickTimers_out, notify_out, List.append_assoc]
  cases t.draw <;> rfl

end

/-! ## A word placed for the next step (log 7) -/

theorem decode_of_decodeTableWord {w n : Nat} {i : Instr} (h : decodeTableWord n w = some i) :
    decode (tableWord n w) = .ok i := by
  cases hd : decode (tableWord n w) with
  | ok j => rw [decodeTableWord, decodeBytes_of_decode hd] at h; exact congrArg _ (Option.some.inj h)
  | error e => simp [decodeTableWord, decodeBytes, hd] at h

theorem readyToRun_pc_le (s : State) : s.readyToRun.pc.toNat ≤ 4093 := by
  unfold State.readyToRun
  generalize (if s.running then s else s.begin) = t
  show (if t.pc.toNat ≤ 4093 then t.pc else Config.entry).toNat ≤ 4093
  split
  · assumption
  · decide

/-- The script of a state made ready has no command at its head, so none stands at the next step. -/
theorem readyToRun_inputs_command (s : State) : s.readyToRun.inputs.command = none := by
  have hscript : s.readyToRun.script = quietScript s.script := by
    unfold State.readyToRun; cases s.running <;> rfl
  unfold State.inputs
  rw [hscript]
  cases s.script <;> rfl

theorem readyToRun_canCycle (s : State) : s.readyToRun.canCycle := by
  refine ⟨?_, rfl, readyToRun_inputs_command s⟩
  unfold State.readyToRun
  cases hr : s.running with
  | true => exact hr
  | false => rfl

/-- The word placed is the one at `pc`, high byte first (R50). -/
theorem wordOfBytes_read_placeWord (s : State) (op : Word) :
    wordOfBytes ((s.placeWord op).mem.read s.pc.toNat) ((s.placeWord op).mem.read (s.pc.toNat + 1)) = op := by
  have hhigh : (s.placeWord op).mem.read s.pc.toNat = highByte op := by
    simp [State.placeWord, read_writeBytes]
  have hlow : (s.placeWord op).mem.read (s.pc.toNat + 1) = lowByte op := by
    simp [State.placeWord, read_writeBytes]
  rw [hhigh, hlow, wordOfBytes_high_low]

theorem withFetchWord_canCycle (s : State) (n w : Nat) : (s.withFetchWord n w).canCycle := readyToRun_canCycle s

theorem withFetchWord_fetches {n w : Nat} {i : Instr} (s : State) (h : decodeTableWord n w = some i) :
    (s.withFetchWord n w).fetches i := by
  refine ⟨readyToRun_pc_le s, ?_⟩
  exact (congrArg decode (wordOfBytes_read_placeWord s.readyToRun _)).trans (decode_of_decodeTableWord h)

/-! ## The render port (R98) -/

/-- The port presents the rows one after another: the library's flattening of the framebuffer. -/
theorem render_eq_flatten (fb : FrameBuffer) : fb.render = fb.flatten.toList := by
  show (fb.toList.map Vector.toList).flatten = (fb.toArray.map Vector.toArray).flatten.toList
  rw [Array.toList_flatten, Array.toList_map, List.map_map]; rfl

theorem render_length (fb : FrameBuffer) : fb.render.length = 2048 := by
  rw [render_eq_flatten, Vector.length_toList]

theorem render_getElem? (fb : FrameBuffer) {x y : Nat} (hy : y < 32) (hx : x < 64) :
    fb.render[64 * y + x]? = some (fb.pixel y x) := by
  have hrow : (64 * y + x) / 64 = y := by omega
  have hcol : (64 * y + x) % 64 = x := by omega
  rw [List.getElem?_eq_getElem (by rw [render_length]; omega)]
  have hflat : (Vector.flatten fb)[64 * y + x] = fb[y][x] := by
    rw [Vector.getElem_flatten]; simp only [hrow, hcol]
  simp [render_eq_flatten, FrameBuffer.pixel, hflat, Nat.mod_eq_of_lt hy, Nat.mod_eq_of_lt hx]

/-! ## The ports

`withPorts` replaces what the outside world presents from this step on. No shared operation reads it, so each commutes
with it, and with the operations every instruction but RandomAnd. -/

/-- `s` with other inputs to come. -/
def State.withPorts (s : State) (ps : List PortInput) (n : Nat) : State := { s with script := ps, ticks := n }

/-- The same replacement in the state a piece of an instruction ends in. -/
def Result.withPorts (ps : List PortInput) (n : Nat) : Result → Result
  | .done s => .done (s.withPorts ps n)
  | .raised f s => .raised f (s.withPorts ps n)

section
variable (s : State) (ps : List PortInput) (n : Nat)

theorem outcome_withPorts (r : Result) : (r.withPorts ps n).outcome = .next (r.commit.withPorts ps n) := by
  cases r <;> rfl

theorem pcNext_withPorts : (s.withPorts ps n).pcNext = s.pcNext.withPorts ps n := by
  rw [State.pcNext, State.pcNext, apply_ite (Result.withPorts ps n)]; rfl

theorem pcRestore_withPorts : (s.withPorts ps n).pcRestore = s.pcRestore.withPorts ps n := by
  rw [State.pcRestore, State.pcRestore, apply_ite (Result.withPorts ps n)]; rfl

theorem skipIf_withPorts (c : Bool) : (s.withPorts ps n).skipIf c = (s.skipIf c).withPorts ps n := by
  cases c with
  | false => rfl
  | true => exact pcNext_withPorts s ps n

theorem skipOnKey_withPorts (x : Nibble) (b : Bool) :
    (s.withPorts ps n).skipOnKey x b = (s.skipOnKey x b).withPorts ps n := by
  unfold State.skipOnKey
  rw [apply_ite (Result.withPorts ps n), ← skipIf_withPorts]
  rfl

theorem storeBytes_withPorts (bs : List Byte) (a : Nat) :
    (s.withPorts ps n).storeBytes a bs = (s.storeBytes a bs).withPorts ps n := by
  by_cases h : a + bs.length ≤ 4096
  · rw [storeBytes_of_le bs h, storeBytes_of_le bs h]; rfl
  · cases bs with
    | nil => rfl
    | cons b bs =>
      rw [storeBytes_of_gt _ (by omega) (List.cons_ne_nil b bs), storeBytes_of_gt _ (by omega) (List.cons_ne_nil b bs)]
      rfl

theorem loadRegsFrom_withPorts (m : Nat) : ∀ (s : State) (a j : Nat),
    (s.withPorts ps n).loadRegsFrom a j m = (s.loadRegsFrom a j m).withPorts ps n := by
  induction m with
  | zero => intro s a j; rfl
  | succ m ih =>
    intro s a j
    by_cases h : a < 4096
    · rw [State.loadRegsFrom, State.loadRegsFrom, readByte_of_lt h, readByte_of_lt h]
      exact ih (s.setReg (BitVec.ofNat 4 j) (s.mem.read a)) (a + 1) (j + 1)
    · rw [State.loadRegsFrom, State.loadRegsFrom, readByte_of_ge (by omega), readByte_of_ge (by omega)]
      rfl

theorem blitRows_withPorts (vx vy m : Nat) : ∀ (r : Nat) (coll : Bool) (s : State),
    blitRows vx vy m r coll (s.withPorts ps n) = (blitRows vx vy m r coll s).withPorts ps n := by
  induction m with
  | zero => intro r coll s; rfl
  | succ m ih =>
    intro r coll s
    have haddr : (s.withPorts ps n).effAddr r = s.effAddr r := rfl
    rw [blitRows, blitRows, haddr]
    by_cases h : s.effAddr r < 4096
    · rw [readByte_of_lt h, readByte_of_lt h]
      exact ih (r + 1) _ (s.setFb (blitRow vx (vy + r) (s.mem.read (s.effAddr r)) (s.fb, coll)).1)
    · rw [readByte_of_ge (by omega), readByte_of_ge (by omega)]
      rfl

/-- Every instruction but RandomAnd ends in the same way whatever the ports carry (R95, R141). -/
theorem exec_withPorts {i : Instr} (hi : ∀ x nn, i ≠ .randomAnd x nn) :
    ∃ r : Result, exec i s = r.outcome ∧ exec i (s.withPorts ps n) = (r.withPorts ps n).outcome := by
  cases i with
  | randomAnd x nn => exact absurd rfl (hi x nn)
  | ret =>
    by_cases h : s.sp.val = 0
    · exact ⟨.raised _ s, exec_ret_of_empty h, exec_ret_of_empty h⟩
    · exact ⟨.done _, exec_ret_of_pos h, exec_ret_of_pos (s := s.withPorts ps n) h⟩
  | callMachineCode nnn =>
    cases h : s.callmc with
    | nop => exact ⟨.done s, exec_callMachineCode_of_nop nnn h, exec_callMachineCode_of_nop nnn h⟩
    | unsupported =>
      exact ⟨.raised _ s, exec_callMachineCode_of_unsupported nnn h, exec_callMachineCode_of_unsupported nnn h⟩
  | callSubroutine nnn =>
    by_cases h : s.sp.val < 15
    · exact ⟨.done _, exec_callSubroutine_of_lt nnn h, exec_callSubroutine_of_lt (s := s.withPorts ps n) nnn h⟩
    · have hfull : s.sp.val = 15 := by omega
      exact ⟨.raised _ s, exec_callSubroutine_of_full nnn hfull, exec_callSubroutine_of_full nnn hfull⟩
  | waitForKey x =>
    cases h : s.lowestKey with
    | some j => exact ⟨.done _, exec_waitForKey_of_some x h, exec_waitForKey_of_some (s := s.withPorts ps n) x h⟩
    | none =>
      refine ⟨_, exec_waitForKey_of_none x h, ?_⟩
      rw [← pcRestore_withPorts]
      exact exec_waitForKey_of_none x h
  | skipIfEqualValue _ _ | skipIfNotEqualValue _ _ | skipIfEqualRegister _ _ | skipIfNotEqualRegister _ _ =>
    exact ⟨_, rfl, congrArg Result.outcome (skipIf_withPorts s ps n _)⟩
  | skipIfKeyPressed x | skipIfKeyNotPressed x =>
    exact ⟨_, rfl, congrArg Result.outcome (skipOnKey_withPorts s ps n x _)⟩
  | drawSprite _ _ _ => exact ⟨_, rfl, congrArg Result.outcome (blitRows_withPorts ps n _ _ _ _ _ s)⟩
  | storeBCD _ | storeRegisters _ => exact ⟨_, rfl, congrArg Result.outcome (storeBytes_withPorts s ps n _ _)⟩
  | loadRegisters _ => exact ⟨_, rfl, congrArg Result.outcome (loadRegsFrom_withPorts ps n _ s _ _)⟩
  | clearScreen | jump _ | jumpPlusV0 _ | loadValue _ _ | addValue _ _ | loadRegister _ _ | or _ _ | and _ _ | xor _ _
  | addRegisters _ _ | subtractRegisters _ _ | shiftRight _ | reverseSubtract _ _ | shiftLeft _ | loadIndex _
  | loadDelayTimer _ | setDelayTimer _ | setSoundTimer _ | addToIndex _ | loadSpriteLocation _ =>
    exact ⟨.done _, rfl, rfl⟩

end

end Sys2Proof.Machine

section
open Sys2Proof Sys2Proof.Machine

/-- Settles O8: the instruction took no fault, so the outputs are still those of `atExecute`, none, and the end of the
cycle adds its strobes. -/
theorem completedCycleEnds : Obligations.CompletedCycleEnds := by
  intro s t i hc hi ht hf
  have hrest := (exec_writesOnly_of_no_fault ht hf).rest
  have hout : t.out = [] := by rw [hrest, atExecute_out]
  have hscript : t.script = s.script := by rw [hrest, atExecute_script]
  have hticks : t.ticks = s.ticks := by rw [hrest, atExecute_ticks]
  refine ⟨_, step_of_fetches hc hi ht, toNat_endCycle_dt hf, toNat_endCycle_st hf, endCycle_draw hf, ?_, ?_⟩
  · rw [advanceInputs_out, endCycle_out hf, hout, List.nil_append, advanceInputs_st]
  · rw [endCycle_keeps, ← hscript, ← hticks]; rfl

/-- Settles O11: the cycle keeps its sample, and neither the clearing of the outputs nor the advance of the inputs
touches the key flags. -/
theorem keysSampledEveryCycle : Obligations.KeysSampledEveryCycle := by
  intro s t ⟨_, _, hcmd⟩ ht j hj
  obtain ⟨c, hc, -⟩ | ⟨-, -, -, u, hu, rfl⟩ := step_next_cases ht
  · rw [hcmd] at hc; cases hc
  · have hk : u.k = s.clearOutputs.sampleKeys.k := cycle_keeps_sample hu
    have hk' : u.advanceInputs.k = s.clearOutputs.sampleKeys.k := by rw [advanceInputs_k, hk]
    rw [key_of_k hk', key_sampleKeys _ j hj, clearOutputs_inputs]

/-- Settles O12: the placed word is fetched, so it runs as any fetched instruction does. -/
theorem placedWordRuns : Obligations.PlacedWordRuns := by
  intro s w i hw
  have hc := withFetchWord_canCycle s 16 w
  have hi := withFetchWord_fetches s hw
  obtain ⟨t, ht⟩ := exec_next i (s.withFetchWord 16 w).atExecute
  exact ⟨hc, hi, t, ht, step_of_fetches hc hi ht⟩

/-- Settles O40: the port is the flattening of the rows. -/
theorem renderPortRowMajor : Obligations.RenderPortRowMajor :=
  fun fb => ⟨render_length fb, fun _ hy _ hx => render_getElem? fb hy hx⟩

/-- Settles O47, by `exec_withPorts`. -/
theorem onlyRandomAndReadsTheDraw : Obligations.OnlyRandomAndReadsTheDraw := by
  intro i s ps n hi
  obtain ⟨r, hs, hports⟩ := exec_withPorts s ps n hi
  exact ⟨r.commit, hs, hports.trans (outcome_withPorts ps n r)⟩

/-- Settles O5, by `step_of_fetches`; the rest says what `atExecute` is. -/
theorem stepRunsDecodedInstruction : Obligations.StepRunsDecodedInstruction := by
  intro s i hc ⟨hpc, hd⟩
  obtain ⟨t, ht⟩ := exec_next i s.atExecute
  exact ⟨⟨t, ht, step_of_fetches hc ⟨hpc, hd⟩ ht⟩, toNat_atExecute_pc s hpc, key_atExecute s, rfl⟩

/-- Settles O6: the three ranges of `pc` at the top of memory. -/
theorem fetchFaultsAtTheTopOfMemory : Obligations.FetchFaultsAtTheTopOfMemory := by
  intro s hc
  rw [step_of_canCycle hc]
  refine ⟨fun h => ?_, fun h => ?_, fun h => ?_⟩
  · rw [cycle_of_outOfBounds (by rw [clearOutputs_pc]; omega), clearOutputs_pc, max_eq_left h]; rfl
  · rw [cycle_of_outOfBounds (by rw [clearOutputs_pc]; omega), clearOutputs_pc, h]; rfl
  · rw [cycle_of_overflow (by rw [clearOutputs_pc]; exact h)]; rfl

/-- Settles O7: the decoder refuses the word on the state whose `pc` the fetch has advanced. -/
theorem illegalWordFaultsTheCycle : Obligations.IllegalWordFaultsTheCycle := by
  intro s op hc hpc hop hillegal
  rw [step_of_canCycle_of_le hc hpc, ← hop, decodeAndExecute, decode_of_illegalWord hillegal]; rfl

/-- Settles O10, by the step's two laws for a core that takes no cycle. -/
theorem stoppedCoreTakesNoStep : Obligations.StoppedCoreTakesNoStep :=
  fun _ hc => ⟨fun hf hr => step_of_stopped hr hf hc, fun _ hf => step_of_faulted hf hc⟩

end
end

section
/-! PROOFS. The control transfer instructions: Return, CallMachineCode and CallSubroutine (O18, O19, O21), the two jumps
(O20), and the skips on values and registers (O23, O24). -/

namespace Sys2Proof.Machine

/-- The opcode that CallMachineCode records is its own word (R112). -/
theorem zextAddr_eq_encAddr_zero (nnn : Addr) : zextAddr nnn = encAddr 0x0#4 nnn := by
  apply BitVec.eq_of_toNat_eq
  rw [toNat_zextAddr, toNat_encAddr]
  exact (Nat.zero_add _).symm

/-! ## The skips (R115 to R118) -/

section
variable {s : State} {c : Bool}

theorem outcome_skipIf_of_not (hc : c = false) : (s.skipIf c).outcome = .next s := by
  rw [hc, skipIf_false, outcome_done]

theorem outcome_skipIf_of_lt (hc : c = true) (hpc : s.pc.toNat + 2 < 4096) :
    ∃ t, (s.skipIf c).outcome = .next t ∧ t.pc.toNat = s.pc.toNat + 2 ∧ OnlyPc s t := by
  rw [hc, skipIf_true, pcNext_of_lt hpc]
  exact ⟨_, rfl, toNat_add_two (by omega), rfl, fun _ => rfl⟩

theorem outcome_skipIf_of_ge (hc : c = true) (hpc : 4096 ≤ s.pc.toNat + 2) :
    (s.skipIf c).outcome = .next (takeFault (.programCounterOverflow s.pc) s) := by
  rw [hc, skipIf_true, pcNext_of_ge hpc, outcome_raised]

end

/-- A skip on equality and one on inequality of the same two bytes, be the second an immediate or a register. -/
theorem outcome_skipIf_compare (s : State) (a b : Byte) :
    (a ≠ b → (s.skipIf (a == b)).outcome = .next s) ∧
    (a = b → (s.skipIf (a != b)).outcome = .next s) ∧
    (s.pc.toNat + 2 < 4096 →
      (a = b → ∃ t, (s.skipIf (a == b)).outcome = .next t ∧ t.pc.toNat = s.pc.toNat + 2 ∧ OnlyPc s t) ∧
      (a ≠ b → ∃ t, (s.skipIf (a != b)).outcome = .next t ∧ t.pc.toNat = s.pc.toNat + 2 ∧ OnlyPc s t)) ∧
    (4096 ≤ s.pc.toNat + 2 →
      (a = b → (s.skipIf (a == b)).outcome = .next (takeFault (.programCounterOverflow s.pc) s)) ∧
      (a ≠ b → (s.skipIf (a != b)).outcome = .next (takeFault (.programCounterOverflow s.pc) s))) :=
  ⟨fun h => outcome_skipIf_of_not (beq_false_of_ne h), fun h => outcome_skipIf_of_not (bne_eq_false_iff_eq.mpr h),
    fun hpc => ⟨fun h => outcome_skipIf_of_lt (beq_iff_eq.mpr h) hpc,
      fun h => outcome_skipIf_of_lt (bne_iff_ne.mpr h) hpc⟩,
    fun hpc => ⟨fun h => outcome_skipIf_of_ge (beq_iff_eq.mpr h) hpc,
      fun h => outcome_skipIf_of_ge (bne_iff_ne.mpr h) hpc⟩⟩

/-! The decoder reads the register skips at any low nibble (R75), where `decode_encode` has it 0. -/

theorem decode_skipIfEqualRegister (x y n : Nibble) :
    decode (encXYN 0x5#4 x y n) = .ok (.skipIfEqualRegister x y) := by simp [decode]

theorem decode_skipIfNotEqualRegister (x y n : Nibble) :
    decode (encXYN 0x9#4 x y n) = .ok (.skipIfNotEqualRegister x y) := by simp [decode]

end Sys2Proof.Machine

section
open Sys2Proof Sys2Proof.Machine

/-- Settles O18, by the two branches of Return. -/
theorem returnPopsStack : Obligations.ReturnPopsStack :=
  ⟨rfl, fun _ => ⟨fun h => ⟨_, exec_ret_of_pos (Nat.ne_of_gt h), rfl, rfl, rfl, fun _ => rfl⟩, exec_ret_of_empty⟩⟩

/-- Settles O19: the conditions on the address are those of `callMcAddrOk`, and the recorded opcode is the word. -/
theorem callMachineCodeByPolicy : Obligations.CallMachineCodeByPolicy := by
  intro s nnn
  refine ⟨fun hlt hclear hret => decode_encode_callMachineCode (callMcAddrOk_iff.mpr ⟨hlt, hclear, hret⟩),
    exec_callMachineCode_of_nop nnn, fun h => ?_⟩
  rw [exec_callMachineCode_of_unsupported nnn h, zextAddr_eq_encAddr_zero]

/-- Settles O20: both targets fit in 16 bits. -/
theorem jumpsSetPc : Obligations.JumpsSetPc :=
  fun s nnn => ⟨decode_encode (i := .jump nnn) rfl, decode_encode (i := .jumpPlusV0 nnn) rfl,
    ⟨_, rfl, toNat_zextAddr nnn, rfl, fun _ => rfl⟩,
    ⟨_, rfl, toNat_zextByte_add_zextAddr (s.reg 0x0#4) nnn, rfl, fun _ => rfl⟩⟩

/-- Settles O21, by the two branches of CallSubroutine; the jump leaves the stack as the push made it. -/
theorem callPushesReturnAddress : Obligations.CallPushesReturnAddress :=
  fun s nnn => ⟨decode_encode (i := .callSubroutine nnn) rfl,
    fun h => ⟨_, exec_callSubroutine_of_lt nnn h, toNat_zextAddr nnn, rfl,
      fun j => getElem_stack_push s _ j s.pc, rfl, fun _ => rfl⟩,
    exec_callSubroutine_of_full nnn⟩

/-- Settles O23: both skips compare `V[X]` with `NN`. -/
theorem valueSkips : Obligations.ValueSkips :=
  fun s x nn => ⟨decode_encode (i := .skipIfEqualValue x nn) rfl, decode_encode (i := .skipIfNotEqualValue x nn) rfl,
    outcome_skipIf_compare s (s.reg x) nn⟩

/-- Settles O24: both skips compare `V[X]` with `V[Y]`, and the decoder does not look at the low nibble. -/
theorem registerSkips : Obligations.RegisterSkips :=
  fun s x y n => ⟨decode_skipIfEqualRegister x y n, decode_skipIfNotEqualRegister x y n,
    outcome_skipIf_compare s (s.reg x) (s.reg y)⟩

end
end

section
/-! PROOFS. Register arithmetic and logic: the instructions without a flag (O25, O26, O30), and those that write `VF` first
and the result last (O27, O28, O29). -/

namespace Sys2Proof.Machine

/-! ## What the two writes leave unchanged -/

theorem onlyRegs_setReg (s : State) (x : Nibble) (b : Byte) : OnlyRegs s (s.setReg x b) [x] :=
  ⟨fun _ hr => reg_setReg_ne s b (List.ne_of_not_mem_cons hr), rfl, fun _ => rfl⟩

theorem onlyRegs_writeFlagThen (s : State) (x : Nibble) (c b : Byte) :
    OnlyRegs s (s.writeFlagThen x c b) [x, vfIdx] := by
  refine ⟨fun r hr => ?_, rfl, fun _ => rfl⟩
  obtain ⟨hx, hvf⟩ : r ≠ x ∧ r ≠ vfIdx := by simpa using hr
  rw [reg_writeFlagThen, if_neg hx, if_neg hvf]

/-- What an instruction of the form of R135 does: the result is in `V[X]` at every `X`, the flag in `VF` unless the result
took its place. -/
theorem exec_writeFlagThen {i : Instr} {s : State} {x : Nibble} {c b : Byte} {flag result : Nat}
    (hexec : exec i s = .next (s.writeFlagThen x c b)) (hb : b.toNat = result) (hc : c.toNat = flag) :
    ∃ t, exec i s = .next t ∧ (t.reg x).toNat = result ∧ (x ≠ 0xF#4 → (t.reg 0xF#4).toNat = flag) ∧
      OnlyRegs s t [x, 0xF#4] := by
  refine ⟨_, hexec, ?_, fun hx => ?_, onlyRegs_writeFlagThen s x c b⟩
  · rw [reg_writeFlagThen, if_pos rfl, hb]
  · rw [reg_writeFlagThen, if_neg (Ne.symm hx), if_pos rfl, hc]

/-! ## The flags as numbers -/

theorem toNat_flagByte_decide (p : Prop) [Decidable p] : (flagByte (decide p)).toNat = if p then 1 else 0 := by
  by_cases h : p <;> simp [flagByte, h]

theorem toNat_carryFlag (a b : Byte) : (carryFlag a b).toNat = if a.toNat + b.toNat > 255 then 1 else 0 :=
  toNat_flagByte_decide _

theorem toNat_noBorrowFlag (a b : Byte) : (noBorrowFlag a b).toNat = if a.toNat ≥ b.toNat then 1 else 0 :=
  toNat_flagByte_decide _

/-- A bit of a byte as the flag a shift drops it into. -/
theorem toNat_flagByte_getLsbD (a : Byte) (j : Nat) : (flagByte (a.getLsbD j)).toNat = a.toNat / 2 ^ j % 2 := by
  rw [BitVec.getLsbD, Nat.testBit_eq_decide_div_mod_eq, toNat_flagByte_decide]
  split <;> omega

theorem toNat_lowBitFlag (a : Byte) : (lowBitFlag a).toNat = a.toNat % 2 := by
  rw [lowBitFlag, toNat_flagByte_getLsbD]; omega

theorem toNat_highBitFlag (a : Byte) : (highBitFlag a).toNat = a.toNat / 128 := by
  rw [highBitFlag, toNat_flagByte_getLsbD]; omega

/-! ## The results as numbers -/

theorem toNat_sub_byte (a b : Byte) : (a - b).toNat = (a.toNat + 256 - b.toNat) % 256 := by
  rw [BitVec.toNat_sub]; omega

theorem toNat_shiftRight_one (a : Byte) : (a >>> 1).toNat = a.toNat / 2 := by
  rw [BitVec.toNat_ushiftRight, Nat.shiftRight_eq_div_pow]

theorem toNat_shiftLeft_one (a : Byte) : (a <<< 1).toNat = a.toNat * 2 % 256 := by
  rw [BitVec.toNat_shiftLeft, Nat.shiftLeft_eq]

/-! The decoder reads the shifts at any `Y` nibble (R138, R140), where `decode_encode` has it 0. -/

theorem decode_shiftRight (x y : Nibble) : decode (encXYN 0x8#4 x y 0x6#4) = .ok (.shiftRight x) := by
  rw [decode_of_seg8 (by simp)]; simp [decodeSeg8]

theorem decode_shiftLeft (x y : Nibble) : decode (encXYN 0x8#4 x y 0xE#4) = .ok (.shiftLeft x) := by
  rw [decode_of_seg8 (by simp)]; simp [decodeSeg8]

end Sys2Proof.Machine

section
open Sys2Proof Sys2Proof.Machine

/-- Settles O25: both write `V[X]` alone, the sum of two bytes being one modulo 256. -/
theorem loadAndAddValue : Obligations.LoadAndAddValue := by
  intro s x nn
  refine ⟨decode_encode (i := .loadValue x nn) rfl, decode_encode (i := .addValue x nn) rfl,
    ⟨_, rfl, reg_setReg_same s x nn, onlyRegs_setReg s x nn⟩, ⟨_, rfl, ?_, onlyRegs_setReg s x _⟩⟩
  rw [reg_setReg_same, BitVec.toNat_add]

/-- Settles O26: all four write `V[X]` alone, and the bits are those of the three bitwise operations. -/
theorem copyAndLogic : Obligations.CopyAndLogic := by
  intro s x y
  refine ⟨decode_encode (i := .loadRegister x y) rfl, decode_encode (i := .or x y) rfl,
    decode_encode (i := .and x y) rfl, decode_encode (i := .xor x y) rfl,
    ⟨_, rfl, reg_setReg_same s x _, onlyRegs_setReg s x _⟩, ⟨_, rfl, fun j _ => ?_, onlyRegs_setReg s x _⟩,
    ⟨_, rfl, fun j _ => ?_, onlyRegs_setReg s x _⟩, ⟨_, rfl, fun j _ => ?_, onlyRegs_setReg s x _⟩⟩
  · rw [reg_setReg_same, BitVec.getLsbD_or]
  · rw [reg_setReg_same, BitVec.getLsbD_and]
  · rw [reg_setReg_same, BitVec.getLsbD_xor]

/-- Settles O30: the byte on the port, whatever it is, is masked bit by bit into `V[X]`. -/
theorem randomAndMasksDraw : Obligations.RandomAndMasksDraw := by
  intro s x nn
  refine ⟨decode_encode (i := .randomAnd x nn) rfl, ⟨_, rfl, fun j _ => ?_, onlyRegs_setReg s x _⟩⟩
  rw [reg_setReg_same, BitVec.getLsbD_and]

/-- Settles O27, an instruction of the form of R135 with the carry as its flag. -/
theorem addRegistersCarry : Obligations.AddRegistersCarry :=
  fun s x y => ⟨decode_encode (i := .addRegisters x y) rfl,
    exec_writeFlagThen rfl (BitVec.toNat_add (s.reg x) (s.reg y)) (toNat_carryFlag (s.reg x) (s.reg y))⟩

/-- Settles O28, two instructions of the form of R135 whose operands are exchanged. -/
theorem subtractsNoBorrow : Obligations.SubtractsNoBorrow :=
  fun s x y => ⟨decode_encode (i := .subtractRegisters x y) rfl, decode_encode (i := .reverseSubtract x y) rfl,
    exec_writeFlagThen rfl (toNat_sub_byte (s.reg x) (s.reg y)) (toNat_noBorrowFlag (s.reg x) (s.reg y)),
    exec_writeFlagThen rfl (toNat_sub_byte (s.reg y) (s.reg x)) (toNat_noBorrowFlag (s.reg y) (s.reg x))⟩

/-- Settles O29, two instructions of the form of R135 whose flag is the bit that drops out. -/
theorem shiftsInPlace : Obligations.ShiftsInPlace :=
  fun s x y => ⟨decode_shiftRight x y, decode_shiftLeft x y,
    exec_writeFlagThen rfl (toNat_shiftRight_one (s.reg x)) (toNat_lowBitFlag (s.reg x)),
    exec_writeFlagThen rfl (toNat_shiftLeft_one (s.reg x)) (toNat_highBitFlag (s.reg x))⟩

end
end

section
/-! PROOFS. The index register, loads and stores: the two stores to memory (O32, O33), the block load (O34), and the three
writes of `I` (O31). -/

namespace Sys2Proof.Machine

/-! ## The meanings at the address `I` (R153 to R155) -/

theorem exec_storeBCD (s : State) (x : Nibble) :
    exec (.storeBCD x) s = (s.storeBytes s.i.toNat (bcdDigits (s.reg x))).outcome := rfl

theorem exec_storeRegisters (s : State) (x : Nibble) :
    exec (.storeRegisters x) s = (s.storeBytes s.i.toNat (s.regsUpTo x)).outcome := rfl

theorem exec_loadRegisters (s : State) (x : Nibble) :
    exec (.loadRegisters x) s = (s.loadRegsFrom s.i.toNat 0 (x.toNat + 1)).outcome := rfl

/-! ## Blocks that may leave memory (R54) -/

/-- A byte of memory after the part of a block that lies below 4096 was written. -/
theorem read_writeBytes_take (m : Memory) (a c : Nat) (bs : List Byte) :
    (m.writeBytes a (bs.take (4096 - a))).read c =
      if a ≤ c ∧ c < a + bs.length ∧ c < 4096 then bs.getD (c - a) 0 else m.read c := by
  rw [read_writeBytes, List.length_take]
  by_cases h : a ≤ c ∧ c < a + bs.length ∧ c < 4096
  · have hin : c - a < 4096 - a := by omega
    rw [if_pos (by omega), if_pos h, List.getD_eq_getElem?_getD, List.getElem?_take_of_lt hin,
      ← List.getD_eq_getElem?_getD]
  · rw [if_neg (by omega), if_neg h]

/-- What a block of stores leaves: in either case the bytes below 4096 are written, and a block that leaves memory takes
its fault in that state. -/
theorem outcome_storeBytes (s : State) (a : Nat) {bs : List Byte} (hne : bs ≠ []) :
    ∃ t, (a + bs.length ≤ 4096 → (s.storeBytes a bs).outcome = .next t) ∧
      (4096 < a + bs.length → (s.storeBytes a bs).outcome = .next (takeFault (.outOfBounds (max a 4096)) t)) ∧
      OnlyMemory s t ∧
      ∀ c, t.mem.read c = if a ≤ c ∧ c < a + bs.length ∧ c < 4096 then bs.getD (c - a) 0 else s.mem.read c := by
  refine ⟨s.setMem (s.mem.writeBytes a (bs.take (4096 - a))), fun h => ?_, fun h => ?_, rfl,
    fun c => read_writeBytes_take s.mem a c bs⟩
  · rw [storeBytes_of_le bs h, List.take_of_length_le (by omega), outcome_done]
  · rw [storeBytes_of_gt bs h hne, outcome_raised]

/-- What a block of loads into `V[0]` to `V[n - 1]` leaves, likewise. -/
theorem outcome_loadRegsFrom (s : State) (a : Nat) {n : Nat} (hpos : 0 < n) (hn : n ≤ 16) :
    ∃ t, (a + n ≤ 4096 → (s.loadRegsFrom a 0 n).outcome = .next t) ∧
      (4096 < a + n → (s.loadRegsFrom a 0 n).outcome = .next (takeFault (.outOfBounds (max a 4096)) t)) ∧
      t = { s with v := t.v } ∧
      ∀ r : Nibble, t.reg r =
        if r.toNat < n ∧ a + r.toNat < 4096 then s.mem.read (a + r.toNat) else s.reg r := by
  by_cases h : a + n ≤ 4096
  · obtain ⟨t, hrun, hframe, hreg⟩ := loadRegsFrom_of_le n (s := s) (a := a) (j := 0) h (by omega)
    refine ⟨t, fun _ => by rw [hrun, outcome_done], fun hgt => absurd hgt (by omega), hframe, fun r => ?_⟩
    rw [hreg]
    exact if_congr (by omega) rfl rfl
  · obtain ⟨t, hrun, hframe, hreg⟩ := loadRegsFrom_of_gt n (s := s) (a := a) (j := 0) (by omega) hpos (by omega)
    refine ⟨t, fun hle => absurd hle h, fun _ => by rw [hrun, outcome_raised], hframe, fun r => ?_⟩
    rw [hreg]
    exact if_congr (by omega) rfl rfl

/-! ## The digits of StoreBCD (R153) -/

/-- Every digit fits in its byte. -/
theorem toNat_getD_bcdDigits (b : Byte) (k : Nat) :
    ((bcdDigits b).getD k 0).toNat =
      if k = 0 then b.toNat / 100 else if k = 1 then b.toNat / 10 % 10 else if k = 2 then b.toNat % 10 else 0 := by
  match k with
  | 0 => exact Nat.mod_eq_of_lt (by omega)
  | 1 => exact Nat.mod_eq_of_lt (by omega)
  | 2 => exact Nat.mod_eq_of_lt (by omega)
  | _ + 3 => rfl

/-! ## The values written to `I` (R151, R152) -/

theorem toNat_add_zextByte (w : Word) (b : Byte) : (w + zextByte b).toNat = (w.toNat + b.toNat) % 65536 := by
  rw [BitVec.toNat_add, zextByte, BitVec.toNat_setWidth]; omega

/-- The mask of R152 keeps the low nibble. -/
theorem toNat_and_0F (b : Byte) : (b &&& 0x0F#8).toNat = b.toNat % 16 := by
  rw [BitVec.toNat_and]
  exact Nat.and_two_pow_sub_one_eq_mod b.toNat 4

theorem toNat_glyphAddr (b : Byte) : (glyphAddr b).toNat = 5 * (b.toNat % 16) := by
  rw [glyphAddr, toNat_and_0F, BitVec.toNat_ofNat]
  simp only [Config.fontBase, Config.glyphBytes]; omega

end Sys2Proof.Machine

section
open Sys2Proof Sys2Proof.Machine

/-- Settles O32: the block is the three digits, and the byte `k` above `I` is digit `k`. -/
theorem storeBCDDigits : Obligations.StoreBCDDigits := by
  intro s x
  obtain ⟨t, hfit, hleave, hframe, hread⟩ := outcome_storeBytes s s.i.toNat (bs := bcdDigits (s.reg x)) nofun
  have hlen : (bcdDigits (s.reg x)).length = 3 := rfl
  rw [hlen] at hfit hleave
  rw [exec_storeBCD]
  refine ⟨decode_encode (i := .storeBCD x) rfl, t, fun h => hfit (by omega), fun h => hleave (by omega), hframe,
    fun a => ?_⟩
  rw [hread, hlen]
  by_cases h : s.i.toNat ≤ a ∧ a < s.i.toNat + 3 ∧ a < 4096
  · rw [if_pos h, toNat_getD_bcdDigits]
    obtain ⟨hge, hend, hlt⟩ := h
    obtain ⟨k, rfl⟩ := Nat.exists_eq_add_of_le hge
    rw [Nat.add_sub_cancel_left]
    simp only [hlt, true_and, Nat.add_eq_left, Nat.add_left_cancel_iff]
    obtain rfl | rfl | rfl : k = 0 ∨ k = 1 ∨ k = 2 := by omega
    · rfl
    · rfl
    · rfl
  · rw [if_neg h, if_neg (by omega), if_neg (by omega), if_neg (by omega)]

/-- Settles O33: the block is the registers `V[0]` to `V[X]`. -/
theorem storeRegistersBlock : Obligations.StoreRegistersBlock := by
  intro s x
  have hlen := length_regsUpTo s x
  have hne : s.regsUpTo x ≠ [] := List.ne_nil_of_length_eq_add_one hlen
  obtain ⟨t, hfit, hleave, hframe, hread⟩ := outcome_storeBytes s s.i.toNat hne
  rw [hlen] at hfit hleave
  rw [exec_storeRegisters]
  refine ⟨decode_encode (i := .storeRegisters x) rfl, t, fun h => hfit (by omega), fun h => hleave (by omega), hframe,
    fun a => ?_⟩
  rw [hread, hlen]
  by_cases h : s.i.toNat ≤ a ∧ a ≤ s.i.toNat + x.toNat ∧ a < 4096
  · rw [if_pos (by omega), if_pos h, getD_regsUpTo s x (by omega)]
  · rw [if_neg (by omega), if_neg h]

/-- Settles O34: the block is loaded into `V[0]` to `V[X]`, the `X + 1` first registers. -/
theorem loadRegistersBlock : Obligations.LoadRegistersBlock := by
  intro s x
  obtain ⟨t, hfit, hleave, hframe, hreg⟩ :=
    outcome_loadRegsFrom s s.i.toNat (Nat.succ_pos x.toNat) (Nat.succ_le_of_lt x.isLt)
  rw [exec_loadRegisters]
  refine ⟨decode_encode (i := .loadRegisters x) rfl, t, fun h => hfit (by omega), fun h => hleave (by omega), hframe,
    fun a => by rw [hframe], fun r => ?_⟩
  rw [hreg]
  exact if_congr (by omega) rfl rfl

/-- Settles O31, by the numbers of the three values written. -/
theorem indexWrites : Obligations.IndexWrites :=
  fun s x nnn => ⟨decode_encode (i := .loadIndex nnn) rfl, decode_encode (i := .addToIndex x) rfl,
    decode_encode (i := .loadSpriteLocation x) rfl,
    ⟨_, rfl, toNat_zextAddr nnn, rfl, fun _ => rfl⟩,
    ⟨_, rfl, toNat_add_zextByte s.i (s.reg x), rfl, fun _ => rfl⟩,
    ⟨_, rfl, toNat_glyphAddr (s.reg x), rfl, fun _ => rfl⟩⟩

end
end

section
/-! PROOFS. The display instructions: ClearScreen (O37), one DrawSprite (O38), and the same DrawSprite twice (O39). -/

namespace Sys2Proof.Machine

variable (s : State) (vx vy : Nat)

/-! ## Sprites (R170, R172)

A row of the framebuffer is met at most once by the rows of one sprite, since there are fewer of them than 32. -/

/-- A pixel's coordinates are reduced modulo the screen's size (R31). -/
theorem pixel_mod (fb : FrameBuffer) (y x : Nat) : fb.pixel (y % 32) (x % 64) = fb.pixel y x := by
  simp only [FrameBuffer.pixel, Nat.mod_mod]

theorem spriteAt_iff (n y x : Nat) :
    spriteAt s vx vy n y x = true ↔ ∃ r < n, ∃ c < 8, (vy + r) % 32 = y ∧ (vx + c) % 64 = x ∧
      spriteBit (s.mem.read (s.i.toNat + r)) c = true := by
  simp only [spriteAt, List.any_eq_true, List.mem_range, Bool.and_eq_true, beq_iff_eq, and_assoc, spriteBit]

/-- The pixels a sprite covers depend on memory and `I` only. -/
theorem spriteAt_congr {s t : State} (hmem : t.mem = s.mem) (hi : t.i = s.i) : spriteAt t = spriteAt s := by
  funext vx vy n y x
  simp only [spriteAt, hmem, hi]

/-- The rows before row `n` of a sprite do not meet its row of the framebuffer. -/
theorem spriteAt_own_row {n : Nat} (hn : n < 32) (x : Nat) : spriteAt s vx vy n ((vy + n) % 32) x = false := by
  rw [← Bool.not_eq_true, spriteAt_iff]
  rintro ⟨r, hr, -, -, hrow, -⟩
  omega

theorem spriteHits_iff_pixel (n : Nat) :
    spriteHits s vx vy n = true ↔ ∃ y < 32, ∃ x < 64, spriteAt s vx vy n y x = true ∧ s.fb.pixel y x = true := by
  simp only [spriteHits, List.any_eq_true, List.mem_range, Bool.and_eq_true]

/-- A collision by the sprite's own rows and columns. -/
theorem spriteHits_iff_bit (n : Nat) :
    spriteHits s vx vy n = true ↔ ∃ r < n, ∃ c < 8, spriteBit (s.mem.read (s.i.toNat + r)) c = true ∧
      s.fb.pixel (vy + r) (vx + c) = true := by
  simp only [spriteHits_iff_pixel, spriteAt_iff]
  constructor
  · rintro ⟨-, -, -, -, ⟨r, hr, c, hc, rfl, rfl, hbit⟩, hlit⟩
    exact ⟨r, hr, c, hc, hbit, (pixel_mod s.fb _ _).symm.trans hlit⟩
  · rintro ⟨r, hr, c, hc, hbit, hlit⟩
    exact ⟨_, Nat.mod_lt _ (by decide), _, Nat.mod_lt _ (by decide), ⟨r, hr, c, hc, rfl, rfl, hbit⟩,
      (pixel_mod s.fb _ _).trans hlit⟩

/-! ## The blit of the rows that are in memory (R172) -/

/-- The framebuffer of `s` and the collision bit after the first `n` rows of the sprite at `I`. -/
def blitSprite : Nat → FrameBuffer × Bool
  | 0 => (s.fb, false)
  | n + 1 => blitRow vx (vy + n) (s.mem.read (s.i.toNat + n)) (blitSprite n)

/-- A row's address does not depend on the framebuffer. -/
theorem effAddr_setFb (fb : FrameBuffer) (j : Nat) : (s.setFb fb).effAddr j = s.i.toNat + j := rfl

/-- DrawSprite's loop after `m` rows that are in memory. -/
theorem blitRows_add {m : Nat} (k : Nat) (h : ∀ r < m, s.i.toNat + r < 4096) :
    blitRows vx vy (m + k) 0 false s =
      blitRows vx vy k m (blitSprite s vx vy m).2 (s.setFb (blitSprite s vx vy m).1) := by
  induction m generalizing k with
  | zero => rw [Nat.zero_add]; rfl
  | succ m ih =>
    rw [Nat.add_right_comm, Nat.add_assoc, ih (k + 1) fun r hr => h r (by omega), blitRows, effAddr_setFb,
      readByte_of_lt (h m (Nat.lt_succ_self m))]
    rfl

/-- The blit XORs the sprite into the screen: row `n` is the first to meet its row of the framebuffer, and no other row of
the framebuffer is changed by it. -/
theorem blitSprite_pixel {n : Nat} (hn : n ≤ 32) {y x : Nat} (hy : y < 32) (hx : x < 64) :
    (blitSprite s vx vy n).1.pixel y x = (s.fb.pixel y x ^^ spriteAt s vx vy n y x) := by
  induction n with
  | zero => simp [blitSprite, spriteAt]
  | succ n ih =>
    have hsucc : spriteAt s vx vy (n + 1) y x = (spriteAt s vx vy n y x || (List.range 8).any fun c =>
        (vy + n) % 32 == y && (vx + c) % 64 == x && spriteBit (s.mem.read (s.i.toNat + n)) c) := by
      simp [spriteAt, spriteBit, List.range_succ]
    rw [blitSprite, blitRow_pixel, ih (by omega), hsucc, Nat.mod_eq_of_lt hy, Nat.mod_eq_of_lt hx]
    by_cases hrow : y = (vy + n) % 32
    · subst hrow
      simp [spriteAt_own_row s vx vy (show n < 32 by omega), eq_comm (a := x), beq_eq_decide]
    · simp [hrow, Ne.symm hrow]

/-- The collision bit: each row is compared with the screen as it was before the instruction. -/
theorem blitSprite_hit {n : Nat} (hn : n ≤ 32) : (blitSprite s vx vy n).2 = spriteHits s vx vy n := by
  rw [Bool.eq_iff_iff, spriteHits_iff_bit]
  induction n with
  | zero => simp [blitSprite]
  | succ n ih =>
    have hfresh (c : Nat) : (blitSprite s vx vy n).1.pixel (vy + n) (vx + c) = s.fb.pixel (vy + n) (vx + c) := by
      rw [← pixel_mod, blitSprite_pixel s vx vy (by omega) (Nat.mod_lt _ (by decide)) (Nat.mod_lt _ (by decide)),
        spriteAt_own_row s vx vy (by omega), Bool.xor_false, pixel_mod]
    rw [blitSprite, blitRow_hit, Bool.or_eq_true, ih (by omega)]
    simp only [hfresh, List.any_eq_true, List.mem_range, Bool.and_eq_true, Nat.lt_succ_iff_lt_or_eq, or_and_right,
      exists_or, exists_eq_left]

/-! ## The two instructions (R171, R172) -/

theorem exec_clearScreen : exec .clearScreen s = .next (s.setFb FrameBuffer.clear).setDraw := rfl

/-- The cycle of ClearScreen: the draw flag set in it raises `frame_ready` and is cleared (R171, R98). -/
theorem step_clearScreen {s : State} (hc : s.canCycle) (hi : s.fetches .clearScreen) :
    ∃ u, step s = .next u ∧ Output.frameReady ∈ u.out ∧ u.draw = false ∧ u.fb = FrameBuffer.clear := by
  have hf : ((s.atExecute.setFb FrameBuffer.clear).setDraw).fault = none := hc.2.1
  refine ⟨_, step_of_fetches hc hi (exec_clearScreen s.atExecute), ?_, endCycle_draw hf, ?_⟩
  · rw [advanceInputs_out, endCycle_out hf]
    simp
  · rw [advanceInputs_fb, endCycle_fb]; rfl

theorem exec_drawSprite (x y n : Nibble) :
    exec (.drawSprite x y n) s = (blitRows (s.reg x).toNat (s.reg y).toNat n.toNat 0 false s).outcome := rfl

/-- DrawSprite where every row is in memory, or there is none. -/
theorem exec_drawSprite_of_le (x y : Nibble) {n : Nibble} (h : s.i.toNat + n.toNat ≤ 4096 ∨ n.toNat = 0) :
    exec (.drawSprite x y n) s =
      .next ((s.setFb (blitSprite s (s.reg x).toNat (s.reg y).toNat n.toNat).1).finishBlit
        (spriteHits s (s.reg x).toNat (s.reg y).toNat n.toNat)) := by
  rw [exec_drawSprite, ← blitSprite_hit s _ _ (by omega)]
  exact congrArg Result.outcome (blitRows_add s _ _ (m := n.toNat) 0 fun r hr => by omega)

/-- DrawSprite where a row is outside memory: the rows below 4096 are drawn when the next one raises its fault. -/
theorem exec_drawSprite_of_gt (x y : Nibble) {n : Nibble} (h : 4096 < s.i.toNat + n.toNat) (hpos : 0 < n.toNat) :
    exec (.drawSprite x y n) s =
      .next (takeFault (.outOfBounds (max s.i.toNat 4096))
        (s.setFb (blitSprite s (s.reg x).toNat (s.reg y).toNat (4096 - s.i.toNat)).1)) := by
  obtain ⟨k, hk⟩ : ∃ k, n.toNat = (4096 - s.i.toNat) + (k + 1) := ⟨n.toNat - (4096 - s.i.toNat) - 1, by omega⟩
  have hfirst : s.i.toNat + (4096 - s.i.toNat) = max s.i.toNat 4096 := by omega
  rw [exec_drawSprite, hk, blitRows_add s _ _ (k + 1) fun r hr => by omega, blitRows, effAddr_setFb, hfirst,
    readByte_of_ge (Nat.le_max_right ..), outcome_raised]

end Sys2Proof.Machine

section
open Sys2Proof Sys2Proof.Machine

/-- Settles O38: in either case the framebuffer is the blit of the rows that are in memory. -/
theorem drawSpriteXors : Obligations.DrawSpriteXors := by
  intro s x y n
  refine ⟨decode_encode (i := .drawSprite x y n) rfl, fun h => ?_, fun h hpos => ?_⟩
  · refine ⟨_, exec_drawSprite_of_le s x y h, fun py hy px hx => ?_, ?_, fun r hr => ?_, rfl, rfl, fun _ => rfl⟩
    · exact blitSprite_pixel s _ _ (by omega) hy hx
    · exact reg_setReg_same _ vfIdx _
    · exact reg_setReg_ne _ _ hr
  · refine ⟨_, exec_drawSprite_of_gt s x y h hpos, fun py hy px hx => ?_, rfl, fun _ => rfl⟩
    exact blitSprite_pixel s _ _ (by omega) hy hx

/-- Settles O39, by two uses of `drawSpriteXors`: the sprite is the same in both, and the second finds lit what the first
left lit, so it collides exactly where a pixel under a 1 bit was 0. -/
theorem drawSpriteTwiceRestores : Obligations.DrawSpriteTwiceRestores := by
  intro s x y n h hx hy
  obtain ⟨t, ht, htfb, -, htreg, -, htframe, -⟩ := (drawSpriteXors s x y n).2.1 h
  have hmem : t.mem = s.mem := by rw [htframe]
  have hi : t.i = s.i := by rw [htframe]
  obtain ⟨u, hu, hufb, huvf, -⟩ := (drawSpriteXors t x y n).2.1 (by rwa [hi])
  rw [htreg x hx, htreg y hy] at hufb huvf
  have hhits : spriteHits t (s.reg x).toNat (s.reg y).toNat n.toNat = true ↔ ∃ py < 32, ∃ px < 64,
      spriteAt s (s.reg x).toNat (s.reg y).toNat n.toNat py px = true ∧ s.fb.pixel py px = false := by
    rw [spriteHits_iff_pixel, spriteAt_congr hmem hi]
    refine exists_congr fun py => and_congr_right fun hpy => exists_congr fun px => and_congr_right fun hpx =>
      and_congr_right fun hbit => ?_
    rw [htfb py hpy px hpx, hbit, Bool.xor_true, Bool.not_eq_true']
  refine ⟨t, u, ht, hu, fb_ext fun py hpy px hpx => ?_, fun hset => ?_, fun hlit => ?_⟩
  · rw [hufb py hpy px hpx, htfb py hpy px hpx, spriteAt_congr hmem hi, Bool.xor_assoc, Bool.xor_self,
      Bool.xor_false]
  · rw [huvf, if_pos (hhits.2 hset)]
  · rw [huvf, if_neg]
    intro hc
    obtain ⟨py, hpy, px, hpx, hbit, hdark⟩ := hhits.1 hc
    exact Bool.noConfusion (hdark.symm.trans (hlit py hpy px hpx hbit))

/-- Settles O37: the screen is the all-zero one, before and after the end of the cycle. -/
theorem clearScreenZeroes : Obligations.ClearScreenZeroes := by
  refine ⟨by decide, fun s => ⟨_, exec_clearScreen s, fun y _ x _ => pixel_clear y x, rfl, rfl, fun _ => rfl,
    fun hc hi => ?_⟩⟩
  obtain ⟨u, hu, hout, hdraw, hfb⟩ := step_clearScreen hc hi
  exact ⟨u, hu, hout, hdraw, fun y _ x _ => by rw [hfb, pixel_clear]⟩

end
end

section
/-! PROOFS. The key skips (O41), WaitForKey (O42) and the three timer instructions (O43). -/

namespace Sys2Proof.Machine

variable {s : State}

/-! ## The key test of the skips (R180, R181) -/

/-- An index that names no key faults before the key is read (R213). -/
theorem skipOnKey_of_gt {x : Nibble} (b : Bool) (h : 15 < (s.reg x).toNat) :
    s.skipOnKey x b = .raised (.keyIndexOutOfRange (s.reg x)) s := by
  rw [State.skipOnKey, if_pos h]

theorem skipOnKey_of_le {x : Nibble} (b : Bool) (h : (s.reg x).toNat ≤ 15) :
    s.skipOnKey x b = s.skipIf (s.key (s.reg x).toNat == b) := by
  rw [State.skipOnKey, if_neg (by omega)]

/-- Everything the skip on a key in state `b` does where the index names a key. -/
theorem outcome_skipOnKey {x : Nibble} (b : Bool) (h : (s.reg x).toNat ≤ 15) :
    (s.key (s.reg x).toNat = !b → (s.skipOnKey x b).outcome = .next s) ∧
    (s.pc.toNat + 2 < 4096 → s.key (s.reg x).toNat = b →
      ∃ t, (s.skipOnKey x b).outcome = .next t ∧ t.pc.toNat = s.pc.toNat + 2 ∧ OnlyPc s t) ∧
    (4096 ≤ s.pc.toNat + 2 → s.key (s.reg x).toNat = b →
      (s.skipOnKey x b).outcome = .next (takeFault (.programCounterOverflow s.pc) s)) := by
  rw [skipOnKey_of_le b h]
  exact ⟨fun hk => outcome_skipIf_of_not (by rw [hk, Bool.not_beq_self]),
    fun hpc hk => outcome_skipIf_of_lt (beq_iff_eq.mpr hk) hpc,
    fun hpc hk => outcome_skipIf_of_ge (beq_iff_eq.mpr hk) hpc⟩

theorem exec_skipIfKeyPressed (s : State) (x : Nibble) :
    exec (.skipIfKeyPressed x) s = (s.skipOnKey x true).outcome := rfl

theorem exec_skipIfKeyNotPressed (s : State) (x : Nibble) :
    exec (.skipIfKeyNotPressed x) s = (s.skipOnKey x false).outcome := rfl

/-! ## WaitForKey (R182) -/

/-- In a cycle that samples no held key, `Restore()` takes back the advance of the fetch. -/
theorem exec_waitForKey_atExecute (x : Nibble) (hpc : s.pc.toNat ≤ 4093) (hk : s.inputs.keyIn = 0x0000#16) :
    exec (.waitForKey x) s.atExecute = .next (s.atExecute.setPc s.pc) := by
  have hnone : s.atExecute.lowestKey = none :=
    lowestKey_eq_none.mpr fun j hj => by rw [key_atExecute s j hj, hk, BitVec.getLsbD_zero]
  have hback : s.atExecute.pc - 2#16 = s.pc := by rw [atExecute_pc, BitVec.add_sub_cancel]
  rw [exec_waitForKey_of_none x hnone, pcRestore_of_le (by rw [toNat_atExecute_pc s hpc]; omega), hback, outcome_done]

/-! ## The timer instructions (R183 to R185) -/

theorem exec_loadDelayTimer (s : State) (x : Nibble) : exec (.loadDelayTimer x) s = .next (s.setReg x s.dt) := rfl

theorem exec_setDelayTimer (s : State) (x : Nibble) : exec (.setDelayTimer x) s = .next (s.setDelay (s.reg x)) := rfl

theorem exec_setSoundTimer (s : State) (x : Nibble) : exec (.setSoundTimer x) s = .next (s.setSound (s.reg x)) := rfl

end Sys2Proof.Machine

section
open Sys2Proof Sys2Proof.Machine

/-- Settles O42: the least held key is `lowestKey`, and the cycle that holds none ends with the `pc` and the memory it
began with, so it fetches the same word. -/
theorem waitForKeyTakesLeastOrRetries : Obligations.WaitForKeyTakesLeastOrRetries := by
  intro s x
  refine ⟨decode_encode (i := .waitForKey x) rfl, fun j hj hheld hleast => ?_, fun hnone => ⟨fun h => ?_, fun h => ?_⟩,
    fun hc hi hkeys => ?_⟩
  · refine ⟨_, exec_waitForKey_of_some x (lowestKey_eq_some.mpr ⟨hj, hheld, hleast⟩), ?_, onlyRegs_setReg s x _⟩
    rw [reg_setReg_same, BitVec.toNat_ofNat, Nat.mod_eq_of_lt (by omega)]
  · rw [exec_waitForKey_of_none x (lowestKey_eq_none.mpr hnone), pcRestore_of_le h]
    exact ⟨_, rfl, toNat_sub_two h, rfl, fun _ => rfl⟩
  · rw [exec_waitForKey_of_none x (lowestKey_eq_none.mpr hnone), pcRestore_of_lt h, outcome_raised]
  · have ⟨hrun, hfault, _⟩ := hc
    obtain ⟨u, hu, hdt, hst, -, hout, hframe⟩ :=
      completedCycleEnds s _ _ hc hi (exec_waitForKey_atExecute x hi.1 hkeys) hfault
    have hpc : u.pc = s.pc := by rw [hframe]; rfl
    have hmem : u.mem = s.mem := by rw [hframe]; rfl
    refine ⟨u, hu, by rwa [State.fetches, hpc, hmem], hpc, by rw [hframe]; exact hrun, by rw [hframe]; exact hfault,
      fun r => by rw [hframe]; rfl, hdt, hst, by simp [hout], fun a => by rw [hmem]⟩

/-- Settles O43: the copies are one write each, and the end of the cycle counts down what they leave. -/
theorem timerTransfers : Obligations.TimerTransfers := by
  intro s x
  refine ⟨decode_encode (i := .loadDelayTimer x) rfl, decode_encode (i := .setDelayTimer x) rfl,
    decode_encode (i := .setSoundTimer x) rfl,
    ⟨_, exec_loadDelayTimer s x, reg_setReg_same s x s.dt, onlyRegs_setReg s x s.dt⟩,
    ⟨_, exec_setDelayTimer s x, rfl, rfl, fun _ => rfl⟩, ⟨_, exec_setSoundTimer s x, rfl, rfl, fun _ => rfl⟩,
    fun hc hi => ?_, fun hc hi => ?_, fun hc hi => ?_⟩
  · obtain ⟨u, hu, hdt, -, -, -, hframe⟩ :=
      completedCycleEnds s _ _ hc hi (exec_loadDelayTimer s.atExecute x) hc.2.1
    exact ⟨u, hu, by rw [hframe]; exact reg_setReg_same s.atExecute x s.dt, hdt⟩
  · obtain ⟨u, hu, hdt, -⟩ := completedCycleEnds s _ _ hc hi (exec_setDelayTimer s.atExecute x) hc.2.1
    exact ⟨u, hu, hdt⟩
  · obtain ⟨u, hu, -, hst, -, hout, -⟩ := completedCycleEnds s _ _ hc hi (exec_setSoundTimer s.atExecute x) hc.2.1
    rw [setSound_st, atExecute_reg] at hst
    have hbeep : Output.beep ∈ u.out ↔ 0 < u.st.toNat := by rw [hout]; simp
    exact ⟨u, hu, hst, by rw [hbeep, hst]; omega⟩

/-- Settles O41: the two skips are one test, on a key held and on a key not held. -/
theorem keySkips : Obligations.KeySkips := by
  intro s x
  rw [exec_skipIfKeyPressed, exec_skipIfKeyNotPressed]
  refine ⟨decode_encode (i := .skipIfKeyPressed x) rfl, decode_encode (i := .skipIfKeyNotPressed x) rfl, fun h => ?_,
    fun h => ?_⟩
  · rw [skipOnKey_of_gt true h, skipOnKey_of_gt false h, outcome_raised]
    exact ⟨rfl, rfl⟩
  · obtain ⟨hstay, hskip, hover⟩ := outcome_skipOnKey true h
    obtain ⟨hstay', hskip', hover'⟩ := outcome_skipOnKey false h
    exact ⟨hstay, hstay', fun hpc => ⟨hskip hpc, hskip' hpc⟩, fun hpc => ⟨hover hpc, hover' hpc⟩⟩

end
end

section
/-! PROOFS. The taking of a fault: an instruction takes only a fault listed for it (O45), what a cycle that faults leaves
as it was (O9), no step latches ProgramCounterUnderflow (O46), and the command that ends a run without one (O51). -/

namespace Sys2Proof.Machine

variable {i : Instr} {s t : State} {f : CoreFault}

/-! ## The fault an instruction takes (R200, R213) -/

/-- What an instruction is listed to write does not include the latch, `running` and the outputs. -/
theorem WritesOnly.keeps_latch (h : WritesOnly i s t) : t.fault = s.fault ∧ t.running = s.running ∧ t.out = s.out := by
  rw [h.rest]; exact ⟨rfl, rfl, rfl⟩

/-- An instruction that leaves a fault in a latch that was clear has taken that fault. -/
theorem exec_takes_fault (hs : s.fault = none) (ht : exec i s = .next t) (hf : t.fault = some f) :
    ∃ u, t = takeFault f u ∧ WritesOnly i s u ∧ mayRaise i f = true := by
  obtain h | ⟨g, u, rfl, h, hg⟩ := next_cases_of_satisfies (exec_writesOnly i s) ht
  · rw [h.keeps_latch.1, hs] at hf; cases hf
  · obtain rfl := Option.some.inj hf
    exact ⟨u, rfl, h, hg⟩

/-! ## What a fault leaves as it was (R96, R214)

A faulting instruction may have written registers, memory and the framebuffer, but nothing that the end of a cycle
reads. -/

/-- `t` is a state stopped by `f` whose outputs since `s` are those of the fault, and whose timers and draw flag are those
of `s`. -/
structure StoppedBy (f : CoreFault) (s t : State) : Prop where
  running : t.running = false := by rfl
  out : t.out = s.out ++ [.faultOut f, .stopped] := by rfl
  delay : t.dt = s.dt := by rfl
  sound : t.st = s.st := by rfl
  draw : t.draw = s.draw := by rfl

/-- DrawSprite sets the draw flag after its last row, so a row that cannot be read leaves it (R172). -/
theorem exec_drawSprite_fault_keeps_draw {x y n : Nibble} (hs : s.fault = none)
    (ht : exec (.drawSprite x y n) s = .next t) (hf : t.fault = some f) : t.draw = s.draw := by
  by_cases h : s.i.toNat + n.toNat ≤ 4096 ∨ n.toNat = 0
  · obtain rfl := Host.Outcome.next.inj ((exec_drawSprite_of_le s x y h).symm.trans ht)
    cases hs.symm.trans hf
  · obtain rfl := Host.Outcome.next.inj ((exec_drawSprite_of_gt s x y (by omega) (by omega)).symm.trans ht)
    rfl

/-- The other instruction that sets the draw flag, ClearScreen, raises no fault. -/
theorem exec_fault_keeps_draw (hs : s.fault = none) (ht : exec i s = .next t) (hf : t.fault = some f) :
    t.draw = s.draw := by
  obtain ⟨u, rfl, h, hraise⟩ := exec_takes_fault hs ht hf
  cases hd : drawsScreen i with
  | false => exact (h.screen hd).2
  | true =>
    cases i with
    | drawSprite x y n => exact exec_drawSprite_fault_keeps_draw hs ht hf
    | clearScreen => cases hraise
    | _ => cases hd

/-- An instruction that takes a fault stops the core; the two that write a timer take none. -/
theorem exec_stoppedBy (hs : s.fault = none) (ht : exec i s = .next t) (hf : t.fault = some f) : StoppedBy f s t := by
  have hdraw := exec_fault_keeps_draw hs ht hf
  obtain ⟨u, rfl, h, hraise⟩ := exec_takes_fault hs ht hf
  obtain ⟨-, -, hout⟩ := h.keeps_latch
  exact {
    out := by rw [takeFault_out, hout]
    delay := h.delay (by rintro x rfl; cases hraise)
    sound := h.sound (by rintro x rfl; cases hraise)
    draw := hdraw }

/-- A cycle that faults, in its fetch, its decoding or its instruction, ends there: nothing of the end of a cycle is
performed. -/
theorem cycle_stoppedBy (hs : s.fault = none) (ht : cycle s = .next t) (hf : t.fault = some f) : StoppedBy f s t := by
  obtain ⟨-, hc⟩ | ⟨-, hc⟩ | ⟨-, op, u, -, rfl, ⟨e, -, hc⟩ | ⟨i, v, -, hv, hc⟩⟩ := cycle_cases s
  case inr.inr.inr =>
    obtain rfl := Host.Outcome.next.inj (hc.symm.trans ht)
    rw [endCycle_fault] at hf
    obtain ⟨hrun, hout, hdt, hst, hdraw⟩ := exec_stoppedBy (s := s.sampleKeys.setPc _) hs hv hf
    rw [endCycle_of_fault v hf]
    exact ⟨hrun, hout, hdt, hst, hdraw⟩
  all_goals
    obtain rfl := Host.Outcome.next.inj (hc.symm.trans ht)
    obtain rfl := Option.some.inj hf
    exact {}

/-! ## ProgramCounterUnderflow (R208) -/

/-- WaitForKey, run with `pc` advanced as the fetch leaves it (R93), takes no fault. -/
theorem exec_waitForKey_keeps_fault {x : Nibble} (hpc : 2 ≤ s.pc.toNat) (ht : exec (.waitForKey x) s = .next t) :
    t.fault = s.fault := by
  cases hk : s.lowestKey with
  | some j => obtain rfl := Host.Outcome.next.inj ((exec_waitForKey_of_some x hk).symm.trans ht); rfl
  | none =>
    rw [exec_waitForKey_of_none x hk, pcRestore_of_le hpc] at ht
    obtain rfl := Host.Outcome.next.inj ht; rfl

/-- WaitForKey is the only instruction the table of faults lists for it (R200). -/
theorem exec_fault_ne_underflow (hs : s.fault = none) (hpc : 2 ≤ s.pc.toNat) (ht : exec i s = .next t) (p : Word) :
    t.fault ≠ some (.programCounterUnderflow p) := by
  intro hf
  obtain ⟨-, -, -, hraise⟩ := exec_takes_fault hs ht hf
  cases i with
  | waitForKey x => rw [exec_waitForKey_keeps_fault hpc ht, hs] at hf; cases hf
  | _ => cases hraise

/-- The fetch and the decoder raise other faults, and an instruction executes with `pc` advanced. -/
theorem cycle_fault_ne_underflow (hs : s.fault = none) (ht : cycle s = .next t) (p : Word) :
    t.fault ≠ some (.programCounterUnderflow p) := by
  obtain ⟨-, hc⟩ | ⟨-, hc⟩ | ⟨hpc, op, u, -, rfl, ⟨e, -, hc⟩ | ⟨i, v, -, hv, hc⟩⟩ := cycle_cases s
  case inr.inr.inr =>
    obtain rfl := Host.Outcome.next.inj (hc.symm.trans ht)
    rw [endCycle_fault]
    exact exec_fault_ne_underflow (s := s.sampleKeys.setPc _) hs
      (by rw [setPc_pc, toNat_add_two (by omega)]; omega) hv p
  all_goals
    obtain rfl := Host.Outcome.next.inj (hc.symm.trans ht)
    nofun

/-! ## The latch under the commands of the host (R215, D32)

A command latches no fault: `Initialize` may clear the latch, every other command leaves it. -/

theorem hostInitialize_fault_eq_or_none (s : State) (rom : List Byte) :
    (hostInitialize rom s).fault = s.fault ∨ (hostInitialize rom s).fault = none := by
  unfold hostInitialize
  split_ifs
  · exact .inl rfl
  · exact .inl rfl
  · exact .inr rfl

theorem serveCommand_fault_eq_or_none (s : State) (c : HostCommand) :
    (serveCommand c s).fault = s.fault ∨ (serveCommand c s).fault = none := by
  cases c with
  | initRom rom => exact hostInitialize_fault_eq_or_none s rom
  | start | stop | load _ _ | setKeyState _ _ =>
    left
    simp only [serveCommand, hostStart, hostStop, hostLoad, hostSetKeyState]
    split_ifs <;> rfl

end Sys2Proof.Machine

section
open Sys2Proof Sys2Proof.Machine

/-- Settles O45: what an instruction writes before its end leaves the latch, `running` and the outputs, and a fault it
raises is one of those listed for it. -/
theorem instructionsRaiseOnlyTheirFaults : Obligations.InstructionsRaiseOnlyTheirFaults := by
  intro i s t ht
  obtain h | ⟨f, u, rfl, h, hraise⟩ := next_cases_of_satisfies (exec_writesOnly i s) ht
  · exact .inl h.keeps_latch
  · obtain ⟨-, -, hout⟩ := h.keeps_latch
    exact .inr ⟨f, hraise, rfl, rfl, by rw [takeFault_out, hout]⟩

/-- Settles O9: the cycle begins with the outputs taken back and ends where its fault was taken; the key sample is the
one of every cycle (O11). -/
theorem faultedCycleStops : Obligations.FaultedCycleStops := by
  intro s t f hc ht hf
  have ⟨_, hnone, hcmd⟩ := hc
  have hkeys := keysSampledEveryCycle s t hc ht
  obtain ⟨c, hc', -⟩ | ⟨-, -, -, u, hu, rfl⟩ := step_next_cases ht
  · cases hcmd.symm.trans hc'
  · obtain ⟨hrun, hout, hdt, hst, hdraw⟩ := cycle_stoppedBy (s := s.clearOutputs) hnone hu hf
    exact ⟨hrun, hout, hdt, hst, hdraw, hkeys, step_of_faulted hf⟩

/-- Settles O46: a command latches nothing, and a cycle latches other faults only. -/
theorem underflowNeverRaised : Obligations.UnderflowNeverRaised := by
  intro s t ht hs p
  obtain ⟨c, -, rfl⟩ | ⟨-, hnone, -, u, hu, rfl⟩ := step_next_cases ht
  · rw [advanceInputs_fault]
    obtain h | h := serveCommand_fault_eq_or_none s.clearOutputs c
    · rw [h]; exact hs p
    · rw [h]; nofun
  · exact cycle_fault_ne_underflow (s := s.clearOutputs) hnone hu p

/-- Settles O51, by the two branches of `Stop`. -/
theorem stopEndsTheRun : Obligations.StopEndsTheRun := by
  intro s hc
  rw [step_of_command hc, serveCommand]
  refine ⟨fun hr => ?_, fun hr => ?_⟩
  · rw [hostStop_of_running (s := s.clearOutputs) hr]; rfl
  · rw [hostStop_of_stopped (s := s.clearOutputs) hr]; rfl

end
end

section
/-! PROOFS. The host's commands (spec/70_reset_and_hazards.md): the step of a command that changes nothing (O50), `Start`
(O49), `load` (O52) and `setKeyState` (O53). -/

namespace Sys2Proof.Machine

variable {s : State} {c : HostCommand} {r : HostReply}

/-- A command that only answers leaves everything but the step's own outputs and inputs. -/
theorem step_of_answer (hc : s.inputs.command = some c) (h : serveCommand c s.clearOutputs = s.clearOutputs.answer r) :
    step s = .next (s.answered r) := by
  rw [step_of_command hc, h, answer_advanceInputs]

/-- The key flags after one of them is written. -/
theorem key_of_k_set {t : State} {index : Nat} {pressed : Bool} (hi : index < 16) (h : t.k = s.k.set index pressed hi)
    {j : Nat} (hj : j < 16) : t.key j = if j = index then pressed else s.key j := by
  simp [State.key, h, hj, Vector.getElem_set, eq_comm]

end Sys2Proof.Machine

section
open Sys2Proof Sys2Proof.Machine

/-- Settles O52, by the two sides of the bound, which is checked before the first byte is written. -/
theorem loadCopiesOrFails : Obligations.LoadCopiesOrFails := by
  intro s bytes offset hc hr
  have hr' : s.clearOutputs.running = false := hr
  refine ⟨fun hl => step_of_answer hc (hostLoad_of_gt hr' hl), fun hl => ?_⟩
  rw [step_of_command hc, serveCommand, hostLoad_of_le hr' hl]
  exact ⟨_, rfl, rfl, read_writeBytes bytes s.mem offset⟩

/-- Settles O49: a running core only answers, and the `Start` that succeeds is `State.begin` with its strobe. -/
theorem startSeedsOnce : Obligations.StartSeedsOnce := by
  intro s hc
  refine ⟨fun hr => step_of_answer hc (hostStart_of_running (s := s.clearOutputs) hr), fun hr hf hi => ?_⟩
  rw [step_of_command hc, serveCommand, hostStart_of_ok (s := s.clearOutputs) hr hf hi]
  rfl

/-- Settles O50: each refusal is an answer and nothing else. -/
theorem refusedCommandsChangeNothing : Obligations.RefusedCommandsChangeNothing := by
  intro s
  refine ⟨fun rom hc hr => step_of_answer hc ?initRom, fun hc hr hwhy => step_of_answer hc ?start,
    fun bytes offset hc hr => step_of_answer hc ?load, fun index pressed hc hwhy => step_of_answer hc ?setKeyState⟩
  case initRom => exact hostInitialize_of_running (s := s.clearOutputs) hr
  case start =>
    obtain hf | hi := hwhy
    · exact hostStart_of_fault (s := s.clearOutputs) hr hf
    · exact hostStart_of_uninitialized (s := s.clearOutputs) hr hi
  case load => exact hostLoad_of_running (s := s.clearOutputs) hr
  case setKeyState =>
    obtain hr | hj := hwhy
    · exact hostSetKeyState_of_running (s := s.clearOutputs) hr
    · exact hostSetKeyState_of_ge hj

/-- Settles O53: the command that is served writes one entry of the 16 flags. -/
theorem setKeyStateMarksDraw : Obligations.SetKeyStateMarksDraw := by
  intro s index pressed hc hr hi
  have hi' : index < 16 := Nat.lt_succ_of_le hi
  rw [step_of_command hc, serveCommand, hostSetKeyState_of_lt (s := s.clearOutputs) hr hi']
  exact ⟨_, rfl, rfl, fun j hj => key_of_k_set hi' rfl hj⟩

end
end
